-- ==== Sys2Proof/Word.lean ====
section
/-!
DEFINITION. Word.lean: the bit widths the spec names (00_scope.md R7: uN is an unsigned N-bit value).
-/

namespace Sys2Proof

/-- u4: a fibre or channel id (R65). -/
abbrev U4 := BitVec 4

/-- u8: one byte of a unit, or a sensor id. -/
abbrev Byte := BitVec 8

/-- u12: the packet counter (R64). -/
abbrev U12 := BitVec 12

/-- u16. -/
abbrev U16 := BitVec 16

/-- u32: one word of a payload element (R66 to R71). -/
abbrev U32 := BitVec 32

/-- u64. -/
abbrev U64 := BitVec 64

/-- f64: an IEEE 754 binary64 value carried as its 64-bit pattern (R7, R140). -/
abbrev F64 := BitVec 64

end Sys2Proof
end

