-- ==== Sys2Proof/Syntax.lean ====
section
/-!
DEFINITION. Syntax.lean: the unit operations of the block (R8), one constructor per row of spec/opcode_table.json.
A constructor carries the fields the row leaves open; the fields the row fixes are in its name.
-/

namespace Sys2Proof

/-- The rows of the opcode table (R73). -/
inductive Instr where
  /-- Row HDR.ILL3: a header whose sweep type is 3 (R101). -/
  | hdrIll3 (packetCounter : U12) (triggerMode : BitVec 1) (dataOffset : U16) (dataLength : U32) (timeStamp : U64)
  /-- Row HDR.ILL4_7: a header whose sweep type is 4 to 7; the row fixes bit 2 of `sweepType` only (R101). -/
  | hdrIll47 (packetCounter : U12) (sweepType : BitVec 3) (triggerMode : BitVec 1) (dataOffset : U16)
      (dataLength : U32) (timeStamp : U64)
  /-- Row HDR.PEAK: dataOffset 16, sweep type 0 (R100). -/
  | hdrPeak (packetCounter : U12) (triggerMode : BitVec 1) (dataLength : U32) (timeStamp : U64)
  /-- Row HDR.SPEC: dataOffset 16, sweep type 1 (R100). -/
  | hdrSpec (packetCounter : U12) (triggerMode : BitVec 1) (dataLength : U32) (timeStamp : U64)
  /-- Row HDR.TSPK: dataOffset 16, sweep type 2 (R100). -/
  | hdrTspk (packetCounter : U12) (triggerMode : BitVec 1) (dataLength : U32) (timeStamp : U64)
  /-- Row HDR.PEAK.E: sweep type 0, dataOffset not 16 (R102). -/
  | hdrPeakE (packetCounter : U12) (triggerMode : BitVec 1) (dataOffset : U16) (dataLength : U32) (timeStamp : U64)
  /-- Row HDR.SPEC.E: sweep type 1, dataOffset not 16 (R102). -/
  | hdrSpecE (packetCounter : U12) (triggerMode : BitVec 1) (dataOffset : U16) (dataLength : U32) (timeStamp : U64)
  /-- Row HDR.TSPK.E: sweep type 2, dataOffset not 16 (R102). -/
  | hdrTspkE (packetCounter : U12) (triggerMode : BitVec 1) (dataOffset : U16) (dataLength : U32) (timeStamp : U64)
  /-- Row PEAK: one peak element (R66, R110). -/
  | peak (word0 word1 : U32)
  /-- Row TSPK: one time-stamped peak element (R67, R111). -/
  | tspk (word0 word1 word2 : U32)
  /-- Row SINFO: the first element of a Spectral payload (R68, R112). -/
  | sinfo (word0 pointCount : U32)
  /-- Row SSAMP: every later element of a Spectral payload (R69, R113). -/
  | ssamp (amp1 amp2 amp3 amp4 : U16)
  /-- Row ERR.MISSING: an error payload with errorId 500 (R70, R114). -/
  | errMissing (description : U32)
  /-- Row ERR.MULTI: an error payload with errorId 501 (R70, R114). -/
  | errMulti (description : U32)
  /-- Row ERR.INTERNAL: an error payload with any other errorId (R70, R114). -/
  | errInternal (errorId description : U32)
  /-- Row FLAG: the flag unit (R71, R116). -/
  | flag (sweepCounter reserved : U32)
  deriving DecidableEq, Repr

end Sys2Proof
end

