-- ==== Sys2Proof/WellFormed.lean ====
section
/-!
DEFINITION. WellFormed.lean: which terms of Instr stand for a row of the opcode table. A term is well formed when the
row of its constructor is the row R73 selects for its fields.
-/

namespace Sys2Proof

/-- The fields admit the constructor's row: HDR.ILL4_7 has bit 2 of the sweep type set, the `.E` rows are "reached only
when the `dataOffset = 16` row of the same sweep type did not match", and ERR.INTERNAL is "any other value" (R73). -/
def Instr.wellFormed : Instr → Bool
  | .hdrIll3 _ _ _ _ _ => true
  | .hdrIll47 _ sweepType _ _ _ _ => sweepType.getLsbD 2
  | .hdrPeak _ _ _ _ => true
  | .hdrSpec _ _ _ _ => true
  | .hdrTspk _ _ _ _ => true
  | .hdrPeakE _ _ dataOffset _ _ => dataOffset != 16#16
  | .hdrSpecE _ _ dataOffset _ _ => dataOffset != 16#16
  | .hdrTspkE _ _ dataOffset _ _ => dataOffset != 16#16
  | .peak _ _ => true
  | .tspk _ _ _ => true
  | .sinfo _ _ => true
  | .ssamp _ _ _ _ => true
  | .errMissing _ => true
  | .errMulti _ => true
  | .errInternal errorId _ => errorId != 500#32 && errorId != 501#32
  | .flag _ _ => true

end Sys2Proof
end

