-- ==== Sys2Proof/Decode.lean ====
section
/-!
DEFINITION. Decode.lean: from the bytes of one unit to the unit operation and back (30_encoding.md). A unit of n bytes is
the 8n-bit value `U = BUF[n-1] ++ … ++ BUF[0]`, and every field is a slice of U at the positions of R63 to R71. No unit
carries its own type (R61): the decoder is told the sequencer context, which is the opcode table's column `context`.
-/

namespace Sys2Proof

/-! ## Contexts, unit lengths, byte order -/

/-- What the sequencer expects next: the `context` column of the opcode table (R73, R163). -/
inductive Context where
  | header
  | peak
  | tspk
  | sinfo
  | ssamp
  | errorPayload
  | flag
  deriving DecidableEq, Repr

/-- The length of a unit in bytes (R60, R61). -/
def Context.size : Context → Nat
  | .header => 16
  | .peak => 8
  | .tspk => 12
  | .sinfo => 8
  | .ssamp => 8
  | .errorPayload => 8
  | .flag => 8

/-- The little-endian value of bytes in arrival order: the byte that arrives first is the least significant (R50). -/
def leValue : List Byte → Nat
  | [] => 0
  | b :: bs => b.toNat + 256 * leValue bs

/-- The `n` low bytes of a number, least significant first: the encoder's direction `LEn(v)` (R83). -/
def bytesOf : Nat → Nat → List Byte
  | 0, _ => []
  | n + 1, v => BitVec.ofNat 8 v :: bytesOf n (v / 256)

/-- The unit value U, widened to the longest unit (30_encoding.md, before section 1). -/
def unitValue (bytes : List Byte) : BitVec 128 := BitVec.ofNat 128 (leValue bytes)

/-! ## The header's fields (R63, R64) -/

/-- The six fields of a header, the sweep type still as its three bits. -/
structure Header where
  packetCounter : U12
  sweepType : BitVec 3
  triggerMode : BitVec 1
  dataOffset : U16
  dataLength : U32
  timeStamp : U64
  deriving DecidableEq, Repr

/-- The header's fields at their bits of U (R63, R64). -/
def headerFields (u : BitVec 128) : Header where
  packetCounter := u.extractLsb' 0 12
  sweepType := u.extractLsb' 12 3
  triggerMode := u.extractLsb' 15 1
  dataOffset := u.extractLsb' 16 16
  dataLength := u.extractLsb' 32 32
  timeStamp := u.extractLsb' 64 64

/-- The errors of the document's `decode_header` (R103, R105). `overlong` is the other half of "decoder asserts length". -/
inductive FormatError where
  | shortRead
  | overlong
  | unknownSweepType (value : BitVec 3)
  deriving DecidableEq, Repr

/-- `decode_header` as a pure function of a byte buffer (R103, R105). -/
def decodeHeader (bytes : List Byte) : Except FormatError Header :=
  if bytes.length < 16 then .error .shortRead
  else if 16 < bytes.length then .error .overlong
  else
    let h := headerFields (unitValue bytes)
    if 2 < h.sweepType.toNat then .error (.unknownSweepType h.sweepType) else .ok h

/-! ## The decoder -/

/-- The header row for given fields, the sweep type tested before the data offset (R73 points 1a, 1b, 1c). -/
def headerInstr (h : Header) : Instr :=
  if h.sweepType = 3#3 then .hdrIll3 h.packetCounter h.triggerMode h.dataOffset h.dataLength h.timeStamp
  else if h.sweepType.getLsbD 2 then
    .hdrIll47 h.packetCounter h.sweepType h.triggerMode h.dataOffset h.dataLength h.timeStamp
  else if h.dataOffset = 16#16 then
    if h.sweepType = 0#3 then .hdrPeak h.packetCounter h.triggerMode h.dataLength h.timeStamp
    else if h.sweepType = 1#3 then .hdrSpec h.packetCounter h.triggerMode h.dataLength h.timeStamp
    else .hdrTspk h.packetCounter h.triggerMode h.dataLength h.timeStamp
  else if h.sweepType = 0#3 then .hdrPeakE h.packetCounter h.triggerMode h.dataOffset h.dataLength h.timeStamp
  else if h.sweepType = 1#3 then .hdrSpecE h.packetCounter h.triggerMode h.dataOffset h.dataLength h.timeStamp
  else .hdrTspkE h.packetCounter h.triggerMode h.dataOffset h.dataLength h.timeStamp

/-- The error-payload row for given words (R73 point 3). -/
def errorInstr (errorId description : U32) : Instr :=
  if errorId = 500#32 then .errMissing description
  else if errorId = 501#32 then .errMulti description
  else .errInternal errorId description

/-- The unit operation a unit of value `u` stands for in a context (R73). Every value stands for one. -/
def decodeUnit (c : Context) (u : BitVec 128) : Instr :=
  match c with
  | .header => headerInstr (headerFields u)
  | .peak => .peak (u.extractLsb' 0 32) (u.extractLsb' 32 32)
  | .tspk => .tspk (u.extractLsb' 0 32) (u.extractLsb' 32 32) (u.extractLsb' 64 32)
  | .sinfo => .sinfo (u.extractLsb' 0 32) (u.extractLsb' 32 32)
  | .ssamp => .ssamp (u.extractLsb' 0 16) (u.extractLsb' 16 16) (u.extractLsb' 32 16) (u.extractLsb' 48 16)
  | .errorPayload => errorInstr (u.extractLsb' 0 32) (u.extractLsb' 32 32)
  | .flag => .flag (u.extractLsb' 0 32) (u.extractLsb' 32 32)

/-- Why bytes are no unit: fewer than the context's length, or more. -/
inductive DecodeError where
  | shortUnit
  | longUnit
  deriving DecidableEq, Repr

/-- Decode the bytes of one unit, first arrived first. Total on any bytes; a wrong length is rejected by name. -/
def decode (c : Context) (bytes : List Byte) : Except DecodeError Instr :=
  if bytes.length < c.size then .error .shortUnit
  else if c.size < bytes.length then .error .longUnit
  else .ok (decodeUnit c (unitValue bytes))

/-! ## The encoder -/

/-- The context a row of the opcode table names. -/
def Instr.context : Instr → Context
  | .hdrIll3 _ _ _ _ _ => .header
  | .hdrIll47 _ _ _ _ _ _ => .header
  | .hdrPeak _ _ _ _ => .header
  | .hdrSpec _ _ _ _ => .header
  | .hdrTspk _ _ _ _ => .header
  | .hdrPeakE _ _ _ _ _ => .header
  | .hdrSpecE _ _ _ _ _ => .header
  | .hdrTspkE _ _ _ _ _ => .header
  | .peak _ _ => .peak
  | .tspk _ _ _ => .tspk
  | .sinfo _ _ => .sinfo
  | .ssamp _ _ _ _ => .ssamp
  | .errMissing _ => .errorPayload
  | .errMulti _ => .errorPayload
  | .errInternal _ _ => .errorPayload
  | .flag _ _ => .flag

/-- The value U of a header with these fields (R63, R64; the line `HDR` of R83). -/
def headerUnit (packetCounter : U12) (sweepType : BitVec 3) (triggerMode : BitVec 1) (dataOffset : U16)
    (dataLength : U32) (timeStamp : U64) : BitVec 128 :=
  timeStamp ++ dataLength ++ dataOffset ++ triggerMode ++ sweepType ++ packetCounter

/-- The value U of a unit of two words (R66, R68, R70, R71). -/
def wordsUnit (low high : U32) : BitVec 128 := (high ++ low).setWidth 128

/-- The value U of the unit a term of Instr stands for (the opcode table's column `encoding`). -/
def encodeUnit : Instr → BitVec 128
  | .hdrIll3 cnt trig off len ts => headerUnit cnt 3#3 trig off len ts
  | .hdrIll47 cnt st trig off len ts => headerUnit cnt st trig off len ts
  | .hdrPeak cnt trig len ts => headerUnit cnt 0#3 trig 16#16 len ts
  | .hdrSpec cnt trig len ts => headerUnit cnt 1#3 trig 16#16 len ts
  | .hdrTspk cnt trig len ts => headerUnit cnt 2#3 trig 16#16 len ts
  | .hdrPeakE cnt trig off len ts => headerUnit cnt 0#3 trig off len ts
  | .hdrSpecE cnt trig off len ts => headerUnit cnt 1#3 trig off len ts
  | .hdrTspkE cnt trig off len ts => headerUnit cnt 2#3 trig off len ts
  | .peak w0 w1 => wordsUnit w0 w1
  | .tspk w0 w1 w2 => (w2 ++ w1 ++ w0).setWidth 128
  | .sinfo w0 n => wordsUnit w0 n
  | .ssamp a1 a2 a3 a4 => (a4 ++ a3 ++ a2 ++ a1).setWidth 128
  | .errMissing description => wordsUnit 500#32 description
  | .errMulti description => wordsUnit 501#32 description
  | .errInternal errorId description => wordsUnit errorId description
  | .flag sweepCounter reserved => wordsUnit sweepCounter reserved

/-- The bytes of the unit, first to be sent first. -/
def encode (i : Instr) : List Byte := bytesOf i.context.size (encodeUnit i).toNat

/-! ## Pseudo-units (R84) -/

/-- The low word of a peak element with ids `c`, `f`, `s` overlaid on the pattern `p` (R65, R84). -/
def overlayIds (c f : U4) (s : Byte) (p : F64) : U32 := p.extractLsb' 16 16 ++ c ++ f ++ s

/-- `PEAKID ch=c fib=f sen=s wl=p` (R84). -/
def peakId (c f : U4) (s : Byte) (p : F64) : Instr := .peak (overlayIds c f s p) (p.extractLsb' 32 32)

/-- `TSPKID ch=c fib=f sen=s wl=p sub=d` (R84). -/
def tspkId (c f : U4) (s : Byte) (p : F64) (d : U32) : Instr :=
  .tspk (overlayIds c f s p) (p.extractLsb' 32 32) d

/-- The header line of `FRAME.PEAK cnt=C trig=T ts=X n=N` (R84): st=0 off=16 len=8N. -/
def framePeakHeader (cnt : U12) (trig : BitVec 1) (ts : U64) (n : U32) : Instr := .hdrPeak cnt trig (8#32 * n) ts

/-! ## The opcode table as data (R73, spec/opcode_table.json) -/

/-- One row: it applies in its context to a unit value `u` with `u &&& mask = matchBits`. -/
structure OpcodeRow where
  mnemonic : String
  context : Context
  priority : Nat
  matchBits : BitVec 128
  mask : BitVec 128
  deriving DecidableEq, Repr

/-- The sixteen rows in the table's order. -/
def opcodeRows : List OpcodeRow :=
  [⟨"HDR.ILL3", .header, 1, 0x00003000#128, 0x00007000#128⟩,
   ⟨"HDR.ILL4_7", .header, 1, 0x00004000#128, 0x00004000#128⟩,
   ⟨"HDR.PEAK", .header, 2, 0x00100000#128, 0xFFFF7000#128⟩,
   ⟨"HDR.SPEC", .header, 2, 0x00101000#128, 0xFFFF7000#128⟩,
   ⟨"HDR.TSPK", .header, 2, 0x00102000#128, 0xFFFF7000#128⟩,
   ⟨"HDR.PEAK.E", .header, 3, 0x00000000#128, 0x00007000#128⟩,
   ⟨"HDR.SPEC.E", .header, 3, 0x00001000#128, 0x00007000#128⟩,
   ⟨"HDR.TSPK.E", .header, 3, 0x00002000#128, 0x00007000#128⟩,
   ⟨"PEAK", .peak, 1, 0#128, 0#128⟩,
   ⟨"TSPK", .tspk, 1, 0#128, 0#128⟩,
   ⟨"SINFO", .sinfo, 1, 0#128, 0#128⟩,
   ⟨"SSAMP", .ssamp, 1, 0#128, 0#128⟩,
   ⟨"ERR.MISSING", .errorPayload, 1, 0x000001F4#128, 0xFFFFFFFF#128⟩,
   ⟨"ERR.MULTI", .errorPayload, 1, 0x000001F5#128, 0xFFFFFFFF#128⟩,
   ⟨"ERR.INTERNAL", .errorPayload, 2, 0#128, 0#128⟩,
   ⟨"FLAG", .flag, 1, 0#128, 0#128⟩]

/-- A row matches a unit in a context. -/
def OpcodeRow.applies (r : OpcodeRow) (c : Context) (u : BitVec 128) : Bool :=
  r.context == c && u &&& r.mask == r.matchBits

/-- The row of lowest priority number, the earlier one among equals. -/
def bestRow : List OpcodeRow → Option OpcodeRow
  | [] => none
  | r :: rs =>
    match bestRow rs with
    | none => some r
    | some q => some (if q.priority < r.priority then q else r)

/-- The row the table selects: "among the rows of one context the row with the lowest priority whose (value & mask) ==
match holds" (R73). -/
def selectRow (c : Context) (u : BitVec 128) : Option OpcodeRow :=
  bestRow (opcodeRows.filter fun r => r.applies c u)

/-- The table's mnemonic of a constructor. -/
def Instr.mnemonic : Instr → String
  | .hdrIll3 _ _ _ _ _ => "HDR.ILL3"
  | .hdrIll47 _ _ _ _ _ _ => "HDR.ILL4_7"
  | .hdrPeak _ _ _ _ => "HDR.PEAK"
  | .hdrSpec _ _ _ _ => "HDR.SPEC"
  | .hdrTspk _ _ _ _ => "HDR.TSPK"
  | .hdrPeakE _ _ _ _ _ => "HDR.PEAK.E"
  | .hdrSpecE _ _ _ _ _ => "HDR.SPEC.E"
  | .hdrTspkE _ _ _ _ _ => "HDR.TSPK.E"
  | .peak _ _ => "PEAK"
  | .tspk _ _ _ => "TSPK"
  | .sinfo _ _ => "SINFO"
  | .ssamp _ _ _ _ => "SSAMP"
  | .errMissing _ => "ERR.MISSING"
  | .errMulti _ => "ERR.MULTI"
  | .errInternal _ _ => "ERR.INTERNAL"
  | .flag _ _ => "FLAG"

/-! ## A word of the opcode table without its context

The numbers `nbits` and `w` do not carry the table's context column. The convention (assumption log 13): a word longer than
twelve bytes is a header; one longer than eight is a TSPK element; one longer than four is an error payload when its low
word is 500 or 501, else a peak element; a shorter one is what the most specific row says: an error payload when the low
word is 500 or 501, else a header. -/

/-- The context in which a bare table word is read. -/
def tableContext (nbits w : Nat) : Context :=
  let isDeviceError := w % 2 ^ 32 = 500 ∨ w % 2 ^ 32 = 501
  if 96 < nbits then .header
  else if 64 < nbits then .tspk
  else if isDeviceError then .errorPayload
  else if 32 < nbits then .peak
  else .header

/-- The bytes of the unit a bare table word stands for: every bit above `nbits` is 0. -/
def tableBytes (nbits w : Nat) : List Byte := bytesOf (tableContext nbits (w % 2 ^ nbits)).size (w % 2 ^ nbits)

/-- What the decoder reads from a unit whose bits are `w`, numbered as the table numbers them. -/
def decodeTableWord (nbits w : Nat) : Option Instr :=
  (decode (tableContext nbits (w % 2 ^ nbits)) (tableBytes nbits w)).toOption

end Sys2Proof
end

