-- ==== Sys2Proof/Machine/State.lean ====
section
/-!
DEFINITION. Machine/State.lean: the registers of 10_state.md R21, the two streams of 20_memory.md, the parameters of
00_scope.md R6, the reset input, and what a step can answer.
-/

namespace Sys2Proof.Machine

/-- PHASE, the orchestrator's state (R22). The unused codes 5 to 7 do not exist (U12). -/
inductive Phase where
  | awaitingHeader
  | dataOffsetNormal
  | dataOffsetError
  | awaitingFlag
  | terminated
  deriving DecidableEq, Repr

/-- SWEEP, the sweep type latched by the last header (R23). The code 3 does not exist (U12). -/
inductive SweepType where
  | peak
  | spectral
  | timestampedPeak
  deriving DecidableEq, Repr

/-- FAULT, the sticky fault code (R25). `unexpectedDataOffset` is reserved: no rule raises it (R203). -/
inductive FaultCode where
  | noFault
  | ioShortRead
  | ioFailure
  | unknownSweepType
  | unexpectedDataOffset
  deriving DecidableEq, Repr

/-- A token of the input stream (R40). A fourth token kind does not exist (U11). -/
inductive Token where
  | byte (b : Byte)
  | endOfStream
  | ioError
  deriving DecidableEq, Repr

/-- The class of an error payload (R80, R115). -/
inductive ErrorClass where
  | missingPeak
  | multiplePeaks
  | internal
  deriving DecidableEq, Repr

/-- HeaderInfo, tag 0 (R75). -/
structure HeaderInfo where
  packetCounter : U12
  sweepType : SweepType
  triggerMode : BitVec 1
  dataOffset : U16
  dataLength : U32
  timeStamp : U64
  deriving DecidableEq, Repr

/-- PeakRecord, tag 1 (R76): `forceBits` is all zero when `forceValid` is false. -/
structure PeakRecord where
  sensorId : Byte
  fiberId : U4
  channelId : U4
  wavelengthBits : F64
  forceValid : Bool
  forceBits : F64
  deriving DecidableEq, Repr

/-- TimestampedPeakRecord, tag 2 (R77): the PeakRecord fields, then the sub-timestamp raw and scaled. -/
structure TimestampedPeakRecord where
  peak : PeakRecord
  subTimestampRaw : U32
  subTimestampSeconds : F64
  deriving DecidableEq, Repr

/-- SpectralInfo, tag 3 (R78). -/
structure SpectralInfo where
  sensorId : Byte
  fiberId : U4
  channelId : U4
  pointCount : U32
  deriving DecidableEq, Repr

/-- SpectralSample, tag 4 (R79): four 16-bit two's-complement patterns. -/
structure SpectralSample where
  amp1 : U16
  amp2 : U16
  amp3 : U16
  amp4 : U16
  deriving DecidableEq, Repr

/-- ErrorRecord, tag 5 (R80). -/
structure ErrorRecord where
  errorId : U32
  description : U32
  errorClass : ErrorClass
  sensorId : Byte
  fiberId : U4
  channelId : U4
  deriving DecidableEq, Repr

/-- FlagInfo, tag 6 (R81). -/
structure FlagInfo where
  sweepCounter : U32
  reserved : U32
  deriving DecidableEq, Repr

/-- One record of the output stream (R46, R74). -/
inductive Record where
  | headerInfo (r : HeaderInfo)
  | peak (r : PeakRecord)
  | timestampedPeak (r : TimestampedPeakRecord)
  | spectralInfo (r : SpectralInfo)
  | spectralSample (r : SpectralSample)
  | error (r : ErrorRecord)
  | flag (r : FlagInfo)
  deriving DecidableEq, Repr

/-- One entry of the calibration table (R48): the valid bit and the reference wavelength in metres. -/
structure CalEntry where
  valid : Bool
  reference : F64
  deriving DecidableEq, Repr

/-- The calibration table as data (R29, R48): the entries at their 16-bit index, indexes strictly rising. An index that
is not listed reads as an entry that is not valid. `CalTable.wf` in Machine/Ops.lean states the canonical form. -/
abbrev CalTable := List (Nat × CalEntry)

/-- Everything the block remembers, and everything it is given. -/
structure State where
  /-- BUF[0..15], the bytes of the unit in assembly, BUF[0] the first that arrived (R21). -/
  buf : Vector Byte 16
  /-- CNT: how many bytes of the current unit are in BUF (R21). -/
  cnt : BitVec 5
  /-- PHASE (R22). -/
  phase : Phase
  /-- SWEEP (R23). -/
  sweep : SweepType
  /-- REM: how many payload elements of the current frame are still to be read (R21). -/
  rem : U32
  /-- FIRST: the next element of a Spectral payload is the first one (R21). -/
  first : Bool
  /-- ERRFRAME: the current frame is an error frame (R21). -/
  errFrame : Bool
  /-- FAULT (R25). -/
  fault : FaultCode
  /-- FAULT_INFO (R25). -/
  faultInfo : BitVec 3
  /-- The tokens offered and not yet consumed, next first (R40; assumption log 1). -/
  input : List Token
  /-- The records emitted, oldest first (R46; assumption log 2). -/
  output : List Record
  /-- The level of the reset input `rst` (R220; assumption log 4). -/
  rst : Bool
  /-- The parameter CAL (R6, R48; assumption log 3). No step writes it. -/
  cal : CalTable
  /-- The parameter STOP_AFTER_ERROR_FRAME (R6, R168; assumption log 3). No step writes it. -/
  stopAfterErrorFrame : Bool
  /-- The model's own: how many calibration lookups have been made, the index of the free values (assumption log 8). -/
  draws : Nat
  deriving DecidableEq, Repr

/-- The block right after reset (R31, R221), with no token offered, a calibration table without a valid entry and
STOP_AFTER_ERROR_FRAME = 0 (R6). BUF is unspecified by the spec; zero is a DESIGN CHOICE (assumption log 5), and so are
the empty stream and the empty table (assumption logs 1 and 3). -/
def State.reset : State where
  buf := Vector.replicate 16 0#8
  cnt := 0#5
  phase := .awaitingHeader
  sweep := .peak
  rem := 0#32
  first := false
  errFrame := false
  fault := .noFault
  faultInfo := 0#3
  input := []
  output := []
  rst := false
  cal := []
  stopAfterErrorFrame := false
  draws := 0

/-- The states in which a step has no next state. Neither is a fault code of the block: those are written into FAULT by
a next state (R206). -/
inductive Fault where
  /-- Raised by `blockStep` when PHASE is Terminated: "a Terminated block has no step" (R160). A stuck state. Safe: the
  block does nothing there until reset. -/
  | terminated
  /-- Raised by `blockStep` when no token is offered: "stuck: no step is enabled" (U15, R175). Safe: the block keeps its
  state until a token comes. -/
  | noToken
  deriving DecidableEq, Repr

/-- What the model has no meaning for. -/
inductive Refusal where
  /-- An instruction that has no meaning yet, by its mnemonic: raised by exec's refused arms alone. Safe. -/
  | notModelled (mnemonic : String)
  /-- Raised by `byteStep` when CNT + 1 exceeds the unit's length, which "cannot occur" (R162, R27 (a)). Safe. -/
  | unreachableCount
  /-- Raised by `runUnit` when the decoder rejects the assembled bytes; it never does, since it is given exactly the
  unit's length. Safe. -/
  | undecodable
  /-- Raised by `loadCal` and `setStop` when the integrator changes a parameter while rst = 0 (R227, U8). Safe. -/
  | parameterWriteWhileRunning
  /-- Raised by `connectSource` when the byte-source is replaced while rst = 0: the tokens it had offered would be dropped
  (R225, R229). Safe. -/
  | streamReplacedWhileRunning
  deriving DecidableEq, Repr

end Sys2Proof.Machine
end

