-- ==== Sys2Proof/Machine/Flags.lean ====
section
/-!
DEFINITION. Machine/Flags.lean: the block has no condition codes and no arithmetic flags (R28). Its status bits are FIRST,
ERRFRAME and FAULT: what sets FIRST, what the pair (STOP_AFTER_ERROR_FRAME, ERRFRAME) decides, the class of an error, and
the numeric codes of the enumerations (R22, R23, R25, R80).
-/

namespace Sys2Proof.Machine

/-- FIRST after a normal header: `(st == 1) ? 1 : 0` (R100). -/
def firstOf (st : SweepType) : Bool := st == .spectral

/-- PHASE after a normal header that announces `n` elements (R100, R165). -/
def phaseAfterHeader (n : U32) : Phase := if n = 0#32 then .awaitingFlag else .dataOffsetNormal

/-- PHASE after a flag (R116, R168). -/
def phaseAfterFlag (stopAfterErrorFrame errFrame : Bool) : Phase :=
  if stopAfterErrorFrame && errFrame then .terminated else .awaitingHeader

/-- `classifyError(errorId)`, on the full 32-bit value (R115). -/
def classifyError (errorId : U32) : ErrorClass :=
  if errorId = 500#32 then .missingPeak else if errorId = 501#32 then .multiplePeaks else .internal

/-- The numeric code of PHASE (R22). -/
def Phase.code : Phase → BitVec 3
  | .awaitingHeader => 0
  | .dataOffsetNormal => 1
  | .dataOffsetError => 2
  | .awaitingFlag => 3
  | .terminated => 4

/-- The numeric code of SWEEP (R23). -/
def SweepType.code : SweepType → BitVec 2
  | .peak => 0
  | .spectral => 1
  | .timestampedPeak => 2

/-- The numeric code of FAULT (R25). -/
def FaultCode.code : FaultCode → BitVec 3
  | .noFault => 0
  | .ioShortRead => 1
  | .ioFailure => 2
  | .unknownSweepType => 3
  | .unexpectedDataOffset => 4

/-- The numeric code of `errorClass` (R80). -/
def ErrorClass.code : ErrorClass → BitVec 2
  | .missingPeak => 0
  | .multiplePeaks => 1
  | .internal => 2

end Sys2Proof.Machine
end

