-- ==== Sys2Proof/Machine/Binary64.lean ====
section
/-!
DEFINITION. Machine/Binary64.lean: the block's arithmetic (43_calibration.md R140, R141, R142): IEEE 754 binary64
subtraction, division, multiplication, and the exact conversion of an unsigned 32-bit integer. An operation computes the
exact result as a quotient of naturals and rounds it once, to nearest, ties to even. Magnitudes are counted in units of
2^-1074, the smallest subnormal, so that every finite value is a natural number of units.

Each operation takes `nan`, the bits from which a NaN result is made (R142; assumption log 6).
-/

namespace Sys2Proof.Machine

/-! ## The fields of a pattern (R140, G2) -/

/-- The sign bit, bit 63. -/
def f64Sign (p : F64) : Bool := p.getLsbD 63

/-- The biased exponent, bits 62:52. -/
def f64Exp (p : F64) : Nat := (p.extractLsb' 52 11).toNat

/-- The fraction, bits 51:0. -/
def f64Frac (p : F64) : Nat := (p.extractLsb' 0 52).toNat

/-- Exponent all ones, fraction not zero. -/
def f64IsNaN (p : F64) : Bool := f64Exp p == 2047 && f64Frac p != 0

/-- Exponent all ones, fraction zero. -/
def f64IsInf (p : F64) : Bool := f64Exp p == 2047 && f64Frac p == 0

/-- Neither NaN nor infinity. -/
def f64IsFinite (p : F64) : Bool := f64Exp p != 2047

/-- +0.0 or -0.0. -/
def f64IsZero (p : F64) : Bool := f64Exp p == 0 && f64Frac p == 0

/-- The magnitude of a finite pattern in units of 2^-1074: subnormal for exponent 0, else 1.f times a power of two. -/
def f64Units (p : F64) : Nat :=
  if f64Exp p = 0 then f64Frac p else (2 ^ 52 + f64Frac p) * 2 ^ (f64Exp p - 1)

/-- The signed value of a finite pattern in units of 2^-1074. -/
def f64Value (p : F64) : Int := if f64Sign p then -(f64Units p : Int) else (f64Units p : Int)

/-! ## Making patterns -/

/-- A pattern from its sign and its other 63 bits. -/
def f64Pack (sign : Bool) (bits : Nat) : F64 := BitVec.ofBool sign ++ BitVec.ofNat 63 bits

/-- The 63 low bits of an infinity. -/
def infBits : Nat := 2047 * 2 ^ 52

/-- An infinity of the given sign. -/
def f64Inf (sign : Bool) : F64 := f64Pack sign infBits

/-- A zero of the given sign. -/
def f64Zero (sign : Bool) : F64 := f64Pack sign 0

/-- Some NaN: the sign and the fraction of `nan`, a fraction of zero replaced by the quiet bit. Every NaN pattern is its
own image, so no NaN is left out (R142). -/
def f64NaN (nan : F64) : F64 :=
  f64Pack (f64Sign nan) (infBits + if f64Frac nan = 0 then 2 ^ 51 else f64Frac nan)

/-- 1 in units of 2^-1074. -/
def unitsPerOne : Nat := 2 ^ 1074

/-- The quotient of `n` by `d`, to the nearest natural number, a tie to the even one. -/
def roundQuotient (n d : Nat) : Nat :=
  if d < 2 * (n % d) ∨ (d = 2 * (n % d) ∧ n / d % 2 = 1) then n / d + 1 else n / d

/-- The binary64 nearest to `n / d` units, ties to the even last fraction bit, an infinity on overflow, no flush of
subnormals (R141). With `q` the power of two that is the last place of the result, `q * 2^52 + k` is the pattern whether
the result is subnormal or normal, and a `k` that rounds up to 2^53 carries into the exponent. -/
def f64Round (sign : Bool) (n d : Nat) : F64 :=
  let q := Nat.log2 (n / d) - 52
  let bits := q * 2 ^ 52 + roundQuotient n (d * 2 ^ q)
  if infBits ≤ bits then f64Inf sign else f64Pack sign bits

/-! ## The operations (R141) -/

/-- `fsub(a, b)`. An exact zero is +0.0, but for (-0.0) - (+0.0) = -0.0. -/
def fsub (nan a b : F64) : F64 :=
  if f64IsNaN a || f64IsNaN b then f64NaN nan
  else if f64IsInf a then
    if f64IsInf b && f64Sign a == f64Sign b then f64NaN nan else a
  else if f64IsInf b then f64Inf (!f64Sign b)
  else
    let d := f64Value a - f64Value b
    if d = 0 then f64Zero (f64Sign a && !f64Sign b) else f64Round (decide (d < 0)) d.natAbs 1

/-- `fmul(a, b)`. -/
def fmul (nan a b : F64) : F64 :=
  let sign := f64Sign a ^^ f64Sign b
  if f64IsNaN a || f64IsNaN b then f64NaN nan
  else if f64IsInf a then (if f64IsZero b then f64NaN nan else f64Inf sign)
  else if f64IsInf b then (if f64IsZero a then f64NaN nan else f64Inf sign)
  else f64Round sign (f64Units a * f64Units b) unitsPerOne

/-- `fdiv(a, b)`. -/
def fdiv (nan a b : F64) : F64 :=
  let sign := f64Sign a ^^ f64Sign b
  if f64IsNaN a || f64IsNaN b then f64NaN nan
  else if f64IsInf a then (if f64IsInf b then f64NaN nan else f64Inf sign)
  else if f64IsInf b then f64Zero sign
  else if f64IsZero b then (if f64IsZero a then f64NaN nan else f64Inf sign)
  else f64Round sign (f64Units a * unitsPerOne) (f64Units b)

/-- `u32_to_f64(w)`: exact, since every u32 is a binary64 value (R134). -/
def u32ToF64 (w : U32) : F64 := f64Round false (w.toNat * unitsPerOne) 1

/-- `bits_to_f64(p)`: no arithmetic, no change of any bit (R7). -/
def bitsToF64 (p : BitVec 64) : F64 := p

end Sys2Proof.Machine
end

