-- ==== Sys2Proof/Machine/Operands.lean ====
section
/-!
DEFINITION. Machine/Operands.lean: the operands the unit operations take out of their words (42_field_extractors.md,
30_encoding.md R72) and the element count of a frame (R165). Pure functions: no state, no fault.
-/

namespace Sys2Proof.Machine

/-! ## The id fields (R130 to R132) -/

/-- `sensorId(w0)`: bits 7:0 (R130). -/
def sensorId (w0 : U32) : Byte := w0.extractLsb' 0 8

/-- `fiberId(w0)`: bits 11:8 (R131). -/
def fiberId (w0 : U32) : U4 := w0.extractLsb' 8 4

/-- `channelId(w0)`: bits 15:12 (R132). -/
def channelId (w0 : U32) : U4 := w0.extractLsb' 12 4

/-! ## The wavelength (R133) -/

/-- The id bits replaced by the sentinel 0x7FFF. -/
def maskedWord (w0 : U32) : U32 := (w0 &&& 0xFFFF0000#32) ||| 0x00007FFF#32

/-- `wavelength(w0, w1)`: word1 in bits 63:32, the masked word0 in bits 31:0; read as it is, never rounded (R133). -/
def wavelength (w0 w1 : U32) : F64 := bitsToF64 (w1 ++ maskedWord w0)

/-! ## The sub-timestamp (R134) -/

/-- `C_SUBTS`, the binary64 nearest to 5e-10 (R143). -/
def cSubTs : F64 := 0x3E012E0BE826D695#64

/-- `subTimestampSeconds(w2)`: one multiplication by the constant (R134). It never yields a NaN, so the bits given for
one do not matter. -/
def subTimestampSeconds (w2 : U32) : F64 := fmul 0#64 (u32ToF64 w2) cSubTs

/-! ## Amplitudes (R72, R79) -/

/-- The signed value of an amplitude pattern, two's complement (G1, D29). -/
def amplitude (pattern : U16) : Int := pattern.toInt

/-! ## The element count (R165) -/

/-- `elementSize(sweepType)` in bytes (R60, R165). -/
def elementSize : SweepType → U32
  | .peak => 8#32
  | .spectral => 8#32
  | .timestampedPeak => 12#32

/-- How many whole elements `dataLength` bytes hold: floor division of unsigned numbers (R165, D9). -/
def elementCount (st : SweepType) (dataLength : U32) : U32 := dataLength / elementSize st

end Sys2Proof.Machine
end

