-- ==== Sys2Proof/Machine/Ops.lean ====
section
/-!
DEFINITION. Machine/Ops.lean: the named updates of State that the unit operations and the steps share, fault entry and
reset among them, and the calibration table's read and write.
-/

namespace Sys2Proof.Machine

/-! ## The streams -/

/-- `StreamRead()` has taken the next token: `rest` is what is left (R40, R41). -/
def State.takeToken (rest : List Token) (s : State) : State := { s with input := rest }

/-- `Emit(rec)`: the record is appended to the output (R46). -/
def State.emit (r : Record) (s : State) : State := { s with output := s.output ++ [r] }

/-! ## Assembly -/

/-- A byte that does not complete its unit: `BUF[CNT] <- b; CNT <- CNT + 1` (R162). -/
def State.storeByte (b : Byte) (s : State) : State :=
  { s with buf := s.buf.setIfInBounds s.cnt.toNat b, cnt := s.cnt + 1#5 }

/-! ## The ends of a unit operation -/

/-- A unit is complete and the next one is named: `CNT <- 0; PHASE <- p` (R100, R114, R116). -/
def State.finishUnit (p : Phase) (s : State) : State := { s with cnt := 0#5, phase := p }

/-- `ElementDone()`, the tail of PEAK, TSPK, SINFO and SSAMP (R164). -/
def State.elementDone (s : State) : State :=
  { s with
    cnt := 0#5
    rem := s.rem - 1#32
    phase := if s.rem - 1#32 = 0#32 then .awaitingFlag else .dataOffsetNormal }

/-- HDR latches the frame: SWEEP, REM, FIRST, ERRFRAME (R100). -/
def State.latchFrame (sweep : SweepType) (rem : U32) (first errFrame : Bool) (s : State) : State :=
  { s with sweep := sweep, rem := rem, first := first, errFrame := errFrame }

/-- `FIRST <- 0` (R112). -/
def State.clearFirst (s : State) : State := { s with first := false }

/-- A calibration lookup has used the free values of the current index (R142, R150). -/
def State.countDraw (s : State) : State := { s with draws := s.draws + 1 }

/-! ## Fault entry and reset -/

/-- `raise Fault(code, info)`: nothing is emitted, and SWEEP, REM, FIRST, ERRFRAME, BUF keep their values (R206). -/
def State.raiseFault (code : FaultCode) (info : BitVec 3) (s : State) : State :=
  { s with fault := code, faultInfo := info, phase := .terminated, cnt := 0#5 }

/-- The run ends without a fault: `PHASE <- Terminated` (R170). -/
def State.terminate (s : State) : State := { s with phase := .terminated }

/-- The reset state, reached from any state while `rst` = 1, and the only way out of Terminated (R31, R220, R221). The
parameters are not changed by reset; the tokens not yet consumed and the level of `rst` are the outside's; the count of
draws goes on, so that no free value is used twice (assumption log 15). -/
def State.resetBlock (s : State) : State :=
  { State.reset with
    input := s.input
    rst := s.rst
    cal := s.cal
    stopAfterErrorFrame := s.stopAfterErrorFrame
    draws := s.draws }

/-! ## The calibration table (R48, R49) -/

/-- What an index reads as that holds no entry: valid bit 0. -/
def absentEntry : CalEntry := ⟨false, 0#64⟩

/-- The 16-bit index `c ++ f ++ s` of a key (R48). -/
def calIndex (c f : U4) (s : Byte) : BitVec 16 := c ++ f ++ s

/-- The entry at an index; an index that is not listed reads as `absentEntry`. -/
def CalTable.read : CalTable → Nat → CalEntry
  | [], _ => absentEntry
  | (j, e) :: t, i => if i = j then e else CalTable.read t i

/-- The integrator stores an entry at an index (R225), keeping the list sorted and free of absent entries. -/
def CalTable.write : CalTable → Nat → CalEntry → CalTable
  | [], i, e => if e = absentEntry then [] else [(i, e)]
  | (j, x) :: t, i, e =>
    if i < j then (if e = absentEntry then (j, x) :: t else (i, e) :: (j, x) :: t)
    else if i = j then (if e = absentEntry then t else (i, e) :: t)
    else (j, x) :: CalTable.write t i e

/-- The listed indexes are at least `lo`, strictly rising and below 65 536, and no listed entry is absent. -/
def CalTable.wfFrom : Nat → CalTable → Bool
  | _, [] => true
  | lo, (i, e) :: t => decide (lo ≤ i) && decide (i < 65536) && decide (e ≠ absentEntry) && CalTable.wfFrom (i + 1) t

/-- The canonical form: equal tables are equal lists. -/
def CalTable.wf (t : CalTable) : Bool := CalTable.wfFrom 0 t

/-- `CalRead(c, f, s)` (R48). -/
def calRead (t : CalTable) (c f : U4) (s : Byte) : CalEntry := CalTable.read t (calIndex c f s).toNat

end Sys2Proof.Machine
end

