-- ==== Sys2Proof/Machine/Header.lean ====
section
/-!
DEFINITION. Machine/Header.lean: the unit operation HDR (40_header_decoder.md), one meaning per row of the opcode table,
and the offered time conversion. A meaning runs in the step that consumes the unit's last byte, that token already taken.
-/

namespace Sys2Proof.Machine

/-- The outcomes of a meaning. -/
abbrev Result := Host.Outcome State Fault Refusal

/-- What follows an outcome: carried on from its next state, a stop where it is a stop. -/
def andThen (r : Result) (f : State → Result) : Result :=
  match r with
  | .next s => f s
  | .fault a => .fault a
  | .refused a => .refused a

/-! ## The three shapes of HDR (R100) -/

/-- A header whose sweep type is above 2: fault UnknownSweepType with FAULT_INFO = the value; nothing is emitted, whatever
the data offset is (R101, R206). -/
def illegalHeader (sweepType : BitVec 3) (s : State) : Result := .next (s.raiseFault .unknownSweepType sweepType)

/-- A header with `dataOffset` = 16: the HeaderInfo is emitted and the frame's element count loaded (R100, R165). -/
def normalHeader (st : SweepType) (packetCounter : U12) (triggerMode : BitVec 1) (dataLength : U32) (timeStamp : U64)
    (s : State) : Result :=
  let n := elementCount st dataLength
  let record := Record.headerInfo ⟨packetCounter, st, triggerMode, 16#16, dataLength, timeStamp⟩
  .next (((s.emit record).latchFrame st n (firstOf st) false).finishUnit (phaseAfterHeader n))

/-- A header with any other `dataOffset`: the HeaderInfo is emitted and one error payload is due (R100, R102). -/
def errorHeader (st : SweepType) (packetCounter : U12) (triggerMode : BitVec 1) (dataOffset : U16) (dataLength : U32)
    (timeStamp : U64) (s : State) : Result :=
  let record := Record.headerInfo ⟨packetCounter, st, triggerMode, dataOffset, dataLength, timeStamp⟩
  .next (((s.emit record).latchFrame st 0#32 false true).finishUnit .dataOffsetError)

/-! ## The rows -/

/-- HDR.ILL3 (R101). -/
def execHdrIll3 (s : State) : Result := illegalHeader 3#3 s

/-- HDR.ILL4_7 (R101). -/
def execHdrIll47 (sweepType : BitVec 3) (s : State) : Result := illegalHeader sweepType s

/-- HDR.PEAK (R100): `REM <- dataLength / 8`. -/
def execHdrPeak (packetCounter : U12) (triggerMode : BitVec 1) (dataLength : U32) (timeStamp : U64) (s : State) :
    Result :=
  normalHeader .peak packetCounter triggerMode dataLength timeStamp s

/-- HDR.SPEC (R100): `REM <- dataLength / 8`, `FIRST <- 1`. -/
def execHdrSpec (packetCounter : U12) (triggerMode : BitVec 1) (dataLength : U32) (timeStamp : U64) (s : State) :
    Result :=
  normalHeader .spectral packetCounter triggerMode dataLength timeStamp s

/-- HDR.TSPK (R100): `REM <- dataLength / 12`. -/
def execHdrTspk (packetCounter : U12) (triggerMode : BitVec 1) (dataLength : U32) (timeStamp : U64) (s : State) :
    Result :=
  normalHeader .timestampedPeak packetCounter triggerMode dataLength timeStamp s

/-- HDR.PEAK.E (R102). -/
def execHdrPeakE (packetCounter : U12) (triggerMode : BitVec 1) (dataOffset : U16) (dataLength : U32)
    (timeStamp : U64) (s : State) : Result :=
  errorHeader .peak packetCounter triggerMode dataOffset dataLength timeStamp s

/-- HDR.SPEC.E (R102). -/
def execHdrSpecE (packetCounter : U12) (triggerMode : BitVec 1) (dataOffset : U16) (dataLength : U32)
    (timeStamp : U64) (s : State) : Result :=
  errorHeader .spectral packetCounter triggerMode dataOffset dataLength timeStamp s

/-- HDR.TSPK.E (R102). -/
def execHdrTspkE (packetCounter : U12) (triggerMode : BitVec 1) (dataOffset : U16) (dataLength : U32)
    (timeStamp : U64) (s : State) : Result :=
  errorHeader .timestampedPeak packetCounter triggerMode dataOffset dataLength timeStamp s

/-! ## The offered time conversion (R104) -/

/-- `unixSeconds(t)`: floor division by 10^9, then the epoch offset subtracted in the integers, as a signed 64-bit value.
No unit operation calls it and no record carries it (R104, D20). -/
def unixSeconds (t : U64) : BitVec 64 := BitVec.ofInt 64 (((t.toNat / 1000000000 : Nat) : Int) - 2208988800)

end Sys2Proof.Machine
end

