-- ==== Sys2Proof/Machine/ErrorFlag.lean ====
section
/-!
DEFINITION. Machine/ErrorFlag.lean: the unit operations ERR and FLAG (41_payload_decoders.md sections 4 and 5).
-/

namespace Sys2Proof.Machine

/-- ERR for any error id: the class comes from the id, the three ids from the description read as a word0; no wavelength
and no force (R114, D21). -/
def errorPayload (errorId description : U32) (s : State) : Result :=
  let record := Record.error
    { errorId := errorId
      description := description
      errorClass := classifyError errorId
      sensorId := sensorId description
      fiberId := fiberId description
      channelId := channelId description }
  .next ((s.emit record).finishUnit .awaitingFlag)

/-- ERR.MISSING (R114): `errorId` is 500. -/
def execErrMissing (description : U32) (s : State) : Result := errorPayload 500#32 description s

/-- ERR.MULTI (R114): `errorId` is 501. -/
def execErrMulti (description : U32) (s : State) : Result := errorPayload 501#32 description s

/-- ERR.INTERNAL (R114). -/
def execErrInternal (errorId description : U32) (s : State) : Result := errorPayload errorId description s

/-- FLAG (R116, R168): both words are reported and neither is looked at. -/
def execFlag (sweepCounter reserved : U32) (s : State) : Result :=
  .next ((s.emit (.flag ⟨sweepCounter, reserved⟩)).finishUnit (phaseAfterFlag s.stopAfterErrorFrame s.errFrame))

end Sys2Proof.Machine
end

