-- ==== Sys2Proof/Config.lean ====
section
/-!
DEFINITION. Config.lean: the free values of the model. Neither constant has a body, so nothing in Lean can compute or
prove a value of it, and a claim holds whatever they are. The parameters CAL and STOP_AFTER_ERROR_FRAME of R6 are not
here: they are fields of State that no step writes, so that every claim about all states is a claim about all tables.
-/

namespace Sys2Proof

/-- The force of the n-th lookup when the table's reference is +0.0 or -0.0: "a free draw, different lookups possibly
different" (R150, U1, D22). Assumption log 7. -/
opaque Config.freeForce : Nat → F64

/-- The raw bits from which the NaN of the n-th lookup is made: "which one, sign and payload, is not fixed" (R142, U5).
Assumption log 6. -/
opaque Config.freeNaN : Nat → F64

end Sys2Proof
end

