-- ==== Sys2Proof/Machine/Calibration.lean ====
section
/-!
DEFINITION. Machine/Calibration.lean: the calibration engine (43_calibration.md): the constants, `computeForce` and the
table lookup `calibrate`. Pure functions of the table, the index of the free values and the operands.
-/

namespace Sys2Proof.Machine

/-! ## Constants (R143) -/

/-- `C_ONE`. -/
def cOne : F64 := 0x3FF0000000000000#64

/-- `C_PE`, the binary64 nearest to 0.28. -/
def cPe : F64 := 0x3FD1EB851EB851EC#64

/-- `C_460`. -/
def c460 : F64 := 0x407CC00000000000#64

/-- `C_SENS`, the binary64 nearest to 0.02986. -/
def cSens : F64 := 0x3F9E939EADD590C1#64

/-- `C_1000`. -/
def c1000 : F64 := 0x408F400000000000#64

/-- `C_DEN`, 1 - 0.28. -/
def cDen : F64 := 0x3FE70A3D70A3D70A#64

/-- `C_INV460`, 1 / 460. -/
def cInv460 : F64 := 0x3F61CF06ADA2811D#64

/-- `C_K`, 1 / 460 / 0.02986. -/
def cK : F64 := 0x3FB2A3405844A579#64

/-! ## The force (R144) -/

/-- `computeForce(reference, measured)`: five operations in the written order, each rounded once. Where one of them
yields a NaN the result is a NaN too, made from `nan` (R142).

DESIGN CHOICE (assumption log 23): applied to a reference that is +0.0 or -0.0 the function answers what the five
operations give, a value that means nothing. There the block's answer is any value (R150, U1), and `calibrate`, which alone
gives the block's answer, never asks for this one. -/
def computeForce (nan reference measured : F64) : F64 :=
  let d := fsub nan measured reference
  let r := fdiv nan d reference
  let strain := fdiv nan r cDen
  let fN := fdiv nan strain cK
  fmul nan fN c1000

/-! ## The lookup (R147, R150) -/

/-- `calibrate(c, f, s, wl)` against a table, with the free values of index `draw`: no force for a key without a valid
entry, any value under a zero reference, else the computed force. -/
def calibrate (t : CalTable) (draw : Nat) (c f : U4) (s : Byte) (wl : F64) : Bool × F64 :=
  let entry := calRead t c f s
  if !entry.valid then (false, 0#64)
  else if f64IsZero entry.reference then (true, Sys2Proof.Config.freeForce draw)
  else (true, computeForce (Sys2Proof.Config.freeNaN draw) entry.reference wl)

end Sys2Proof.Machine
end

