-- ==== Sys2Proof/Machine/Payload.lean ====
section
/-!
DEFINITION. Machine/Payload.lean: the unit operations of a normal payload, PEAK, TSPK, SINFO and SSAMP
(41_payload_decoders.md sections 1 to 3).
-/

namespace Sys2Proof.Machine

/-- The PeakRecord of an element's first two words, calibrated against the block's table (R110, R147, R149). -/
def peakRecord (s : State) (w0 w1 : U32) : PeakRecord :=
  let force := calibrate s.cal s.draws (channelId w0) (fiberId w0) (sensorId w0) (wavelength w0 w1)
  { sensorId := sensorId w0
    fiberId := fiberId w0
    channelId := channelId w0
    wavelengthBits := wavelength w0 w1
    forceValid := force.1
    forceBits := force.2 }

/-- PEAK (R110). -/
def execPeak (word0 word1 : U32) (s : State) : Result :=
  .next ((s.emit (.peak (peakRecord s word0 word1))).countDraw.elementDone)

/-- TSPK (R111). -/
def execTspk (word0 word1 word2 : U32) (s : State) : Result :=
  .next ((s.emit (.timestampedPeak ⟨peakRecord s word0 word1, word2, subTimestampSeconds word2⟩)).countDraw.elementDone)

/-- SINFO (R112): the ids and the point count are reported, FIRST is cleared. -/
def execSinfo (word0 pointCount : U32) (s : State) : Result :=
  .next ((s.emit (.spectralInfo ⟨sensorId word0, fiberId word0, channelId word0, pointCount⟩)).clearFirst.elementDone)

/-- SSAMP (R113): the four patterns are copied, nothing is computed across them. -/
def execSsamp (amp1 amp2 amp3 amp4 : U16) (s : State) : Result :=
  .next ((s.emit (.spectralSample ⟨amp1, amp2, amp3, amp4⟩)).elementDone)

end Sys2Proof.Machine
end

