-- ==== Sys2Proof/Machine/Dispatch.lean ====
section
/-!
DEFINITION. Machine/Dispatch.lean: one arm per row of the opcode table, each a direct call of its meaning.
-/

namespace Sys2Proof.Machine

def exec (i : Instr) (s : State) : Host.Outcome State Fault Refusal :=
  match i with
  | .hdrIll3 _ _ _ _ _ => Sys2Proof.Machine.execHdrIll3 s
  | .hdrIll47 _ st _ _ _ _ => Sys2Proof.Machine.execHdrIll47 st s
  | .hdrPeak cnt trig len ts => Sys2Proof.Machine.execHdrPeak cnt trig len ts s
  | .hdrSpec cnt trig len ts => Sys2Proof.Machine.execHdrSpec cnt trig len ts s
  | .hdrTspk cnt trig len ts => Sys2Proof.Machine.execHdrTspk cnt trig len ts s
  | .hdrPeakE cnt trig off len ts => Sys2Proof.Machine.execHdrPeakE cnt trig off len ts s
  | .hdrSpecE cnt trig off len ts => Sys2Proof.Machine.execHdrSpecE cnt trig off len ts s
  | .hdrTspkE cnt trig off len ts => Sys2Proof.Machine.execHdrTspkE cnt trig off len ts s
  | .peak w0 w1 => Sys2Proof.Machine.execPeak w0 w1 s
  | .tspk w0 w1 w2 => Sys2Proof.Machine.execTspk w0 w1 w2 s
  | .sinfo w0 n => Sys2Proof.Machine.execSinfo w0 n s
  | .ssamp a1 a2 a3 a4 => Sys2Proof.Machine.execSsamp a1 a2 a3 a4 s
  | .errMissing d => Sys2Proof.Machine.execErrMissing d s
  | .errMulti d => Sys2Proof.Machine.execErrMulti d s
  | .errInternal e d => Sys2Proof.Machine.execErrInternal e d s
  | .flag sc r => Sys2Proof.Machine.execFlag sc r s

end Sys2Proof.Machine
end

