-- ==== Sys2Proof/Machine/Sequencer.lean ====
section
/-!
DEFINITION. Machine/Sequencer.lean: the frame orchestrator's step (44_frame_orchestrator.md sections 1 and 4): unit
dispatch, the byte step, the End step, the Err step, and reset; and the placing of a unit where the next step runs it.
-/

namespace Sys2Proof.Machine

/-! ## Unit dispatch (R163) -/

/-- The context the sequencer position selects; Terminated has none (R61, R163). -/
def State.context (s : State) : Option Context :=
  match s.phase with
  | .awaitingHeader => some .header
  | .dataOffsetNormal =>
    match s.sweep with
    | .peak => some .peak
    | .spectral => some (if s.first then .sinfo else .ssamp)
    | .timestampedPeak => some .tspk
  | .dataOffsetError => some .errorPayload
  | .awaitingFlag => some .flag
  | .terminated => none

/-- The bytes of a unit of `n` bytes that `b` completes: `BUF[0 .. n-2]` followed by `b` (R162). -/
def State.unitBytes (s : State) (n : Nat) (b : Byte) : List Byte := s.buf.toList.take (n - 1) ++ [b]

/-- The completed unit is decoded and its operation run (R162). -/
def runUnit (c : Context) (bytes : List Byte) (s : State) : Result :=
  match decode c bytes with
  | .ok i => exec i s
  | .error _ => .refused .undecodable

/-! ## The three kinds of token (R161) -/

/-- The byte step (R162). -/
def byteStep (c : Context) (b : Byte) (s : State) : Result :=
  if s.cnt.toNat + 1 < c.size then .next (s.storeByte b)
  else if s.cnt.toNat + 1 = c.size then runUnit c (s.unitBytes c.size b) s
  else .refused .unreachableCount

/-- The End step: a clean end at a frame boundary, a short read anywhere else (R170, R171). -/
def endStep (s : State) : Result :=
  if s.phase = .awaitingHeader ∧ s.cnt = 0#5 then .next s.terminate else .next (s.raiseFault .ioShortRead 0#3)

/-- The Err step, the frame boundary included (R172). -/
def errStep (s : State) : Result := .next (s.raiseFault .ioFailure 0#3)

/-- What a token does in a context, itself already taken from the stream. -/
def tokenStep (c : Context) (tok : Token) (s : State) : Result :=
  match tok with
  | .byte b => byteStep c b s
  | .endOfStream => endStep s
  | .ioError => errStep s

/-- One step of the block: the reset state is held while `rst` = 1, which in a state the outside can produce changes nothing
and is no step in the spec's sense (R220; assumption log 4); a Terminated block has no step (R160); else one
token is consumed (R161), and with none offered no step is enabled (R175, U15). -/
def blockStep (s : State) : Result :=
  if s.rst then .next s.resetBlock
  else
    match s.context with
    | none => .fault .terminated
    | some c =>
      match s.input with
      | [] => .fault .noToken
      | tok :: rest => tokenStep c tok (s.takeToken rest)

/-! ## Placing a unit (assumption log 13) -/

/-- Write bytes into a buffer from index `i` on. -/
def writeFrom : List Byte → Nat → Vector Byte 16 → Vector Byte 16
  | [], _, v => v
  | b :: bs, i, v => writeFrom bs (i + 1) (v.setIfInBounds i b)

/-- The state with PHASE, SWEEP and FIRST such that a context is selected. -/
def State.selectContext (c : Context) (s : State) : State :=
  match c with
  | .header => { s with phase := .awaitingHeader }
  | .peak => { s with phase := .dataOffsetNormal, sweep := .peak }
  | .tspk => { s with phase := .dataOffsetNormal, sweep := .timestampedPeak }
  | .sinfo => { s with phase := .dataOffsetNormal, sweep := .spectral, first := true }
  | .ssamp => { s with phase := .dataOffsetNormal, sweep := .spectral, first := false }
  | .errorPayload => { s with phase := .dataOffsetError }
  | .flag => { s with phase := .awaitingFlag }

/-- The state in which the very next step completes the unit of these bytes and runs it: its context selected, `rst` 0,
all bytes but the last in BUF, and the last byte the next token. A payload element needs REM at least 1 (R110 to R113). -/
def State.placeUnit (c : Context) (bytes : List Byte) (s : State) : State :=
  let t := s.selectContext c
  { t with
    rst := false
    buf := writeFrom bytes.dropLast 0 t.buf
    cnt := BitVec.ofNat 5 (c.size - 1)
    rem := if t.phase = .dataOffsetNormal ∧ t.rem = 0#32 then 1#32 else t.rem
    input := .byte (bytes.getLastD 0#8) :: t.input }

end Sys2Proof.Machine
end

