-- ==== Sys2Proof/Machine/Step.lean ====
section
/-!
DEFINITION. Machine/Step.lean: the step of the host's interface, and where it finds its next instruction. Both only call
Machine/Sequencer.lean.
-/

namespace Sys2Proof.Machine

/-- One step: one token of the input stream (R11, R161). -/
def step (s : State) : Host.Outcome State Fault Refusal := blockStep s

/-- The state whose very next step runs the unit of a bare table word (assumption log 13). -/
def State.withFetchWord (s : State) (nbits w : Nat) : State :=
  s.placeUnit (tableContext nbits (w % 2 ^ nbits)) (tableBytes nbits w)

end Sys2Proof.Machine
end

