-- ==== Sys2Proof/Machine/Ports.lean ====
section
/-!
DEFINITION. Machine/Ports.lean: what the outside sees and does: the record packing and the ports of 20_memory.md R44 and
R47, and the moves of the byte-source and the integrator (70_reset_and_hazards.md R229). Ports are functions of the states
before and after a step (assumption log 18); host moves are no steps of the block (assumption log 20).
-/

namespace Sys2Proof.Machine

/-! ## Records on the port (R74 to R81) -/

/-- `out_tag` (R74). -/
def Record.tag : Record → BitVec 3
  | .headerInfo _ => 0
  | .peak _ => 1
  | .timestampedPeak _ => 2
  | .spectralInfo _ => 3
  | .spectralSample _ => 4
  | .error _ => 5
  | .flag _ => 6

/-- HeaderInfo packed, first field least significant (R75). -/
def HeaderInfo.pack (r : HeaderInfo) : BitVec 127 :=
  r.timeStamp ++ r.dataLength ++ r.dataOffset ++ r.triggerMode ++ SweepType.code r.sweepType ++ r.packetCounter

/-- PeakRecord packed (R76). -/
def PeakRecord.pack (r : PeakRecord) : BitVec 145 :=
  r.forceBits ++ BitVec.ofBool r.forceValid ++ r.wavelengthBits ++ r.channelId ++ r.fiberId ++ r.sensorId

/-- TimestampedPeakRecord packed: the 145 bits of PeakRecord lowest (R77). -/
def TimestampedPeakRecord.pack (r : TimestampedPeakRecord) : BitVec 241 :=
  r.subTimestampSeconds ++ r.subTimestampRaw ++ PeakRecord.pack r.peak

/-- SpectralInfo packed (R78). -/
def SpectralInfo.pack (r : SpectralInfo) : BitVec 48 := r.pointCount ++ r.channelId ++ r.fiberId ++ r.sensorId

/-- SpectralSample packed (R79). -/
def SpectralSample.pack (r : SpectralSample) : BitVec 64 := r.amp4 ++ r.amp3 ++ r.amp2 ++ r.amp1

/-- ErrorRecord packed (R80). -/
def ErrorRecord.pack (r : ErrorRecord) : BitVec 82 :=
  r.channelId ++ r.fiberId ++ r.sensorId ++ ErrorClass.code r.errorClass ++ r.description ++ r.errorId

/-- FlagInfo packed (R81). -/
def FlagInfo.pack (r : FlagInfo) : BitVec 64 := r.reserved ++ r.sweepCounter

/-- `out_rec`: the record's fields, zero in the unused high bits (R47). -/
def Record.pack : Record → BitVec 241
  | .headerInfo r => (HeaderInfo.pack r).setWidth 241
  | .peak r => (PeakRecord.pack r).setWidth 241
  | .timestampedPeak r => TimestampedPeakRecord.pack r
  | .spectralInfo r => (SpectralInfo.pack r).setWidth 241
  | .spectralSample r => (SpectralSample.pack r).setWidth 241
  | .error r => (ErrorRecord.pack r).setWidth 241
  | .flag r => (FlagInfo.pack r).setWidth 241

/-! ## The ports (R44, R47) -/

/-- `in_ready`: the block takes the offered token (R44); not while it is held in reset (R220). -/
def State.inReady (s : State) : Bool := !s.rst && s.phase != .terminated

/-- The output port in one step (R47). -/
structure OutPort where
  outValid : Bool
  outTag : BitVec 3
  outRec : BitVec 241
  fault : BitVec 3
  faultInfo : BitVec 3
  terminated : Bool
  deriving DecidableEq, Repr

/-- The record a step emitted, from the output lists before and after it: the first one past the old list's end. -/
def emittedRecord (before after : State) : Option Record := after.output[before.output.length]?

/-- What the output port shows in the step from one state to another (R47). -/
def outPort (before after : State) : OutPort :=
  let r := emittedRecord before after
  { outValid := r.isSome
    outTag := (r.map Record.tag).getD 0#3
    outRec := (r.map Record.pack).getD 0#241
    fault := FaultCode.code after.fault
    faultInfo := after.faultInfo
    terminated := after.phase == .terminated }

/-! ## The moves of the outside (R229) -/

/-- The byte-source offers more tokens, in order (R40, R229). -/
def State.offer (tokens : List Token) (s : State) : State := { s with input := s.input ++ tokens }

/-- The integrator drives the reset input (R220, R225). While the level is 1 the block holds the reset state, so it has it
from the moment the level rises, with no step in between, and has it when the level falls. -/
def State.driveRst (level : Bool) (s : State) : State :=
  if level || s.rst then { s.resetBlock with rst := level } else s

/-- The integrator loads an entry of CAL while `rst` = 1; at any other time there is no such move (R225, R227, U8). -/
def loadCal (c f : U4) (k : Byte) (entry : CalEntry) (s : State) : Result :=
  if s.rst then .next { s with cal := CalTable.write s.cal (calIndex c f k).toNat entry }
  else .refused .parameterWriteWhileRunning

/-- The integrator loads entries one after another (R225). -/
def loadAll : List (U4 × U4 × Byte × CalEntry) → State → Result
  | [], s => .next s
  | (c, f, k, entry) :: entries, s => andThen (loadCal c f k entry s) (loadAll entries)

/-- The integrator sets STOP_AFTER_ERROR_FRAME while `rst` = 1 (R225, R227, U8). -/
def setStop (stop : Bool) (s : State) : Result :=
  if s.rst then .next { s with stopAfterErrorFrame := stop } else .refused .parameterWriteWhileRunning

/-- The byte-source is connected anew while `rst` = 1: what it offered before and the block has not consumed is gone, and the
next token is the first of the new stream (R225 (3), R209). While the block runs no token is dropped (R229). -/
def connectSource (tokens : List Token) (s : State) : Result :=
  if s.rst then .next { s with input := tokens } else .refused .streamReplacedWhileRunning

/-- The order of start-up, from any state (R225): hold `rst`, load CAL and set STOP_AFTER_ERROR_FRAME, connect the
byte-source, release `rst`. -/
def startUp (entries : List (U4 × U4 × Byte × CalEntry)) (stop : Bool) (tokens : List Token) (s : State) : Result :=
  andThen (loadAll entries (s.driveRst true)) fun t =>
    andThen (setStop stop t) fun u =>
      andThen (connectSource tokens u) fun v => .next (v.driveRst false)

end Sys2Proof.Machine
end

