-- ==== Sys2Proof/Safety.lean ====
section
/-!
DEFINITION. Safety.lean: the terms claims are stated in: what a run shows and when it has gone wrong (R12), the invariant
of the reachable states (R27), and when two states differ only in what an earlier frame left behind (R226).
-/

namespace Sys2Proof.Machine

/-- What a run shows: the records, FAULT, FAULT_INFO and PHASE (R12). -/
structure Observation where
  records : List Record
  fault : FaultCode
  faultInfo : BitVec 3
  phase : Phase
  deriving DecidableEq, Repr

/-- The observation of a state. -/
def State.observe (s : State) : Observation := ⟨s.output, s.fault, s.faultInfo, s.phase⟩

/-- "A run that ends with FAULT ≠ None has gone wrong" (R12). -/
def State.goneWrong (s : State) : Bool := s.phase == .terminated && s.fault != .noFault

/-- A frame boundary: the next byte is the first of a header (R170). -/
def State.atBoundary (s : State) : Bool := !s.rst && s.phase == .awaitingHeader && s.cnt == 0#5

/-- The integrator's duty of R223: no valid entry holds +0.0 or -0.0. -/
def CalTable.noZeroReference (t : CalTable) : Bool := t.all fun p => !p.2.valid || !f64IsZero p.2.reference

/-- The invariant of the reachable states, R27 (a) to (f) and (h), with FAULT_INFO as R25 gives it and the calibration
table in canonical form. R27 (e) is the type of SWEEP. -/
structure State.Inv (s : State) : Prop where
  /-- R27 (a), first half. -/
  cnt_le : s.cnt.toNat ≤ 15
  /-- R27 (a), second half. -/
  cnt_lt_need : ∀ c, s.context = some c → s.cnt.toNat < c.size
  /-- A Terminated block holds no unit in assembly: every way in clears or finds CNT = 0 (R116, R170, R206). -/
  cnt_terminated : s.phase = .terminated → s.cnt = 0#5
  /-- R27 (b). -/
  normal_rem : s.phase = .dataOffsetNormal → s.rem ≠ 0#32
  /-- R27 (b). -/
  normal_frame : s.phase = .dataOffsetNormal → s.errFrame = false
  /-- R27 (c). -/
  error_frame : s.phase = .dataOffsetError → s.errFrame = true
  /-- R27 (d). -/
  first_spectral : s.first = true → s.sweep = .spectral
  /-- R27 (f). -/
  fault_terminated : s.fault ≠ .noFault → s.phase = .terminated
  /-- R27 (h). -/
  rem_le : s.rem.toNat ≤ 0x1FFFFFFF
  /-- R25: FAULT_INFO is 3 to 7 under UnknownSweepType. -/
  info_unknown : s.fault = .unknownSweepType → 3 ≤ s.faultInfo.toNat
  /-- R25: FAULT_INFO is 0 otherwise. -/
  info_other : s.fault ≠ .unknownSweepType → s.faultInfo = 0#3
  /-- R203: the reserved code is never written. -/
  fault_reserved : s.fault ≠ .unexpectedDataOffset
  /-- The table is in canonical form (R48). -/
  cal_wf : CalTable.wf s.cal = true
  /-- While `rst` = 1 the block holds the reset state (R220). -/
  held_in_reset : s.rst = true → s.resetBlock = s

/-- Two states that agree on everything a later record can depend on: BUF up to CNT, and the four frame latches only
inside a frame, since the next header rewrites them (R226, R30). -/
structure State.SameLive (s t : State) : Prop where
  cnt : s.cnt = t.cnt
  phase : s.phase = t.phase
  fault : s.fault = t.fault
  faultInfo : s.faultInfo = t.faultInfo
  input : s.input = t.input
  output : s.output = t.output
  rst : s.rst = t.rst
  cal : s.cal = t.cal
  stop : s.stopAfterErrorFrame = t.stopAfterErrorFrame
  draws : s.draws = t.draws
  buf : ∀ j, j < s.cnt.toNat → s.buf[j]? = t.buf[j]?
  latches : s.phase = .awaitingHeader ∨ s.phase = .terminated ∨
    (s.sweep = t.sweep ∧ s.rem = t.rem ∧ s.first = t.first ∧ s.errFrame = t.errFrame)

/-- Two outcomes are alike: next states that agree on what is live, or the same stop. -/
def Alike : Result → Result → Prop
  | .next s, .next t => State.SameLive s t
  | .fault a, .fault b => a = b
  | .refused a, .refused b => a = b
  | _, _ => False

/-- Unit operations run one after another, stopping where one has no next state. -/
def execAll : List Instr → State → Result
  | [], s => .next s
  | i :: is, s =>
    match exec i s with
    | .next t => execAll is t
    | .fault r => .fault r
    | .refused r => .refused r

/-- The instruction decodes one element of a normal payload (R163). -/
def isElement (i : Instr) : Bool :=
  i.context == .peak || i.context == .tspk || i.context == .sinfo || i.context == .ssamp

/-- The byte tokens of a list of units, in stream order (R83). -/
def unitTokens (units : List Instr) : List Token := (units.flatMap encode).map Token.byte

end Sys2Proof.Machine
end

