-- ==== Sys2Proof/Certificates/Slice0/Obligations.lean ====
section
/-!
DEFINITION. Certificates/Slice0/Obligations.lean: the statements for the provers. Each docstring names the rule or the
section of spec/ it formalises; where a clause rests on a decision the spec marks as its own (D<n>), on an inference it
marks derived, or on a choice of this model (assumption log <n>), the docstring says so.
-/

open Sys2Proof Sys2Proof.Machine

/-! ## Reset -/

/-- 10_state.md section 8 (R31; the values are the spec's decision D18): what reset leaves, with the numeric codes. BUF,
unspecified there, is left out. -/
def Obligations.ResetLeavesSpecValues : Prop :=
  State.reset.phase = .awaitingHeader ∧ State.reset.cnt = 0#5 ∧ State.reset.sweep = .peak ∧ State.reset.rem = 0#32 ∧
  State.reset.first = false ∧ State.reset.errFrame = false ∧ State.reset.fault = .noFault ∧
  State.reset.faultInfo = 0#3 ∧ State.reset.output = [] ∧ Phase.code State.reset.phase = 0#3 ∧
  SweepType.code State.reset.sweep = 0#2 ∧ FaultCode.code State.reset.fault = 0#3

/-- 70_reset_and_hazards.md section 1 (R220 to R222, decision D18): from any state, Terminated included, `rst` at 1 puts the
block into the reset state at once; while it is 1 a step consumes no token, emits nothing and leaves that state as it is; and
`rst` falling to 0 leaves the reset state. The parameters are not changed. That the level is a field, that the output list
starts anew, that unread tokens stay until the byte-source is connected anew, and that the free-value index goes on are the
model's reading (assumption logs 4 and 15). -/
def Obligations.ResetHeldWhileAsserted : Prop :=
  (∀ (s : State) (level : Bool), level = true ∨ s.rst = true →
    let t := s.driveRst level
    t.rst = level ∧ t.phase = .awaitingHeader ∧ t.cnt = 0#5 ∧ t.sweep = .peak ∧ t.rem = 0#32 ∧ t.first = false ∧
      t.errFrame = false ∧ t.fault = .noFault ∧ t.faultInfo = 0#3 ∧ t.output = [] ∧ t.input = s.input ∧
      t.cal = s.cal ∧ t.stopAfterErrorFrame = s.stopAfterErrorFrame ∧ t.draws = s.draws ∧
      (level = true → step t = .next t ∧ t.inReady = false)) ∧
  (∀ s : State, s.rst = false → s.driveRst false = s) ∧
  (∀ s : State, s.rst = true → step s = .next (s.driveRst true)) ∧
  (∀ s : State, State.Inv s → s.rst = true → step s = .next s)

/-- 10_state.md section 4 (R27, which the spec marks derived): the invariant holds right after reset. -/
def Obligations.InvariantAtReset : Prop := State.Inv State.reset

/-! ## The step -/

/-- 10_state.md section 4 (R27, which the spec marks derived): every step keeps the invariant. -/
def Obligations.StepKeepsInvariant : Prop := ∀ s t : State, State.Inv s → step s = .next t → State.Inv t

/-- 00_scope.md section 7 (R11, decision D1) and 20_memory.md section 1 (R44): on every state of the invariant whose
in_ready is 1, an offered token is consumed, exactly one, and the step answers a next state. -/
def Obligations.StepTotalOnLiveStates : Prop :=
  ∀ s : State, State.Inv s → s.inReady = true → s.input ≠ [] → ∃ tok t, s.input = tok :: t.input ∧ step s = .next t

/-- 20_memory.md section 1 (R41) and 44_frame_orchestrator.md section 1 (R161, decision D1): a step that is not held in
reset consumes exactly one token, the next one, and leaves the rest in order. -/
def Obligations.OneTokenPerStep : Prop :=
  ∀ s t : State, s.rst = false → step s = .next t → ∃ tok, s.input = tok :: t.input

/-- 44_frame_orchestrator.md section 1 (R162, decisions D1, D3): where the bytes in BUF and the next token decode to `i` in
the selected context, the step is exec of `i` with that token taken. -/
def Obligations.StepRunsDecodedUnit : Prop :=
  ∀ (s : State) (b : Byte) (rest : List Token) (c : Context) (i : Instr),
    s.rst = false → s.input = .byte b :: rest → s.context = some c → s.cnt.toNat + 1 = c.size →
    decode c (s.buf.toList.take (c.size - 1) ++ [b]) = .ok i →
    step s = exec i { s with input := rest }

/-- 44_frame_orchestrator.md section 1 (R162, decisions D1, D3): a byte that does not complete its unit goes to BUF[CNT]
and CNT advances by 1; nothing else changes but the stream. -/
def Obligations.ByteStepBuffers : Prop :=
  ∀ (s : State) (b : Byte) (rest : List Token) (c : Context),
    s.rst = false → s.input = .byte b :: rest → s.context = some c → s.cnt.toNat + 1 < c.size →
    ∃ t, step s = .next t ∧ t.cnt.toNat = s.cnt.toNat + 1 ∧ t.buf[s.cnt.toNat]? = some b ∧
      (∀ j : Nat, j ≠ s.cnt.toNat → t.buf[j]? = s.buf[j]?) ∧ t = { s with buf := t.buf, cnt := t.cnt, input := rest }

/-- 44_frame_orchestrator.md section 1 (R163, and R162 for the assembly, decisions D1, D3): the operation the completing byte
runs, row by row of the dispatch table, with the unit lengths of 30_encoding.md section 1 (R61); a byte before it changes
neither PHASE nor the output. -/
def Obligations.DispatchFollowsSequencerState : Prop :=
  ∀ (s : State) (b : Byte) (rest : List Token) (c : Context) (n : Nat),
    (s.phase = .awaitingHeader ∧ c = .header ∧ n = 16) ∨
    (s.phase = .dataOffsetNormal ∧ s.sweep = .peak ∧ c = .peak ∧ n = 8) ∨
    (s.phase = .dataOffsetNormal ∧ s.sweep = .spectral ∧ s.first = true ∧ c = .sinfo ∧ n = 8) ∨
    (s.phase = .dataOffsetNormal ∧ s.sweep = .spectral ∧ s.first = false ∧ c = .ssamp ∧ n = 8) ∨
    (s.phase = .dataOffsetNormal ∧ s.sweep = .timestampedPeak ∧ c = .tspk ∧ n = 12) ∨
    (s.phase = .dataOffsetError ∧ c = .errorPayload ∧ n = 8) ∨
    (s.phase = .awaitingFlag ∧ c = .flag ∧ n = 8) →
    s.rst = false → s.input = .byte b :: rest →
    (s.cnt.toNat + 1 = n →
      ∃ i, i.context = c ∧ i.wellFormed = true ∧ encode i = s.buf.toList.take (n - 1) ++ [b] ∧
        step s = exec i { s with input := rest }) ∧
    (s.cnt.toNat + 1 < n → ∃ t, step s = .next t ∧ t.phase = s.phase ∧ t.output = s.output)

/-- 92_eei_decisions.md D1 ("a model can derive the unit-level step by running `n` byte steps") and 20_memory.md section 1
(R43): from CNT = 0, the byte steps of one unit do what the one unit operation does, and use up exactly its bytes. That the last
byte is not written to BUF, where the spec leaves that open, is the model's choice (assumption log 12). -/
def Obligations.UnitRunIsOneOperation : Prop :=
  ∀ (s : State) (c : Context) (bytes : List Byte) (rest : List Token) (i : Instr),
    s.rst = false → s.context = some c → s.cnt = 0#5 → s.input = bytes.map Token.byte ++ rest →
    decode c bytes = .ok i →
    ∃ buf : Vector Byte 16,
      (∀ j : Nat, j + 1 < c.size → buf[j]? = bytes[j]?) ∧ (∀ j : Nat, c.size ≤ j + 1 → buf[j]? = s.buf[j]?) ∧
      Host.Core.run Sys2Proof.core c.size s =
        exec i { s with buf := buf, cnt := BitVec.ofNat 5 (c.size - 1), input := rest }

/-! ## End of stream, I/O failure, no step -/

/-- 44_frame_orchestrator.md section 4 (R170, decision D12): End at a frame boundary ends the run without a fault. -/
def Obligations.EndAtFrameBoundaryIsClean : Prop :=
  ∀ (s : State) (rest : List Token), s.rst = false → s.input = .endOfStream :: rest →
    s.phase = .awaitingHeader → s.cnt = 0#5 →
    step s = .next { s with input := rest, phase := .terminated }

/-- R171: End anywhere else is the fault IoShortRead with FAULT_INFO 0; nothing is emitted, records already emitted
stand. -/
def Obligations.EndInsideFrameIsShortRead : Prop :=
  ∀ (s : State) (rest : List Token), s.rst = false → s.input = .endOfStream :: rest → s.phase ≠ .terminated →
    (s.phase ≠ .awaitingHeader ∨ s.cnt ≠ 0#5) →
    step s = .next { s with
      input := rest, fault := .ioShortRead, faultInfo := 0#3, phase := .terminated, cnt := 0#5 }

/-- 44_frame_orchestrator.md section 4 (R172, decisions D12, D17): an I/O failure is the fault IoFailure in every state but
Terminated, the frame boundary included. -/
def Obligations.IoErrorFaultsEverywhere : Prop :=
  ∀ (s : State) (rest : List Token), s.rst = false → s.input = .ioError :: rest → s.phase ≠ .terminated →
    step s = .next { s with
      input := rest, fault := .ioFailure, faultInfo := 0#3, phase := .terminated, cnt := 0#5 }

/-- 44_frame_orchestrator.md section 1 (R160, decision D27) and 93_implementation_defined.md U15: a Terminated block has no
step, whatever is offered; any other has none while no token is offered. That these are the outcomes `terminated` and
`noToken` is the model's form (assumption log 14). -/
def Obligations.NoStepWithoutToken : Prop :=
  ∀ s : State, s.rst = false →
    (s.phase = .terminated → step s = .fault .terminated) ∧
    (s.phase ≠ .terminated → s.input = [] → step s = .fault .noToken)

/-! ## The header -/

/-- R101: a header whose sweep type is above 2 faults with FAULT_INFO = the value, whatever its data offset is; nothing is
emitted, and after the fault the block reads nothing more. -/
def Obligations.IllegalSweepTypeFaults : Prop :=
  ∀ s : State,
    (∀ cnt trig off len ts, exec (.hdrIll3 cnt trig off len ts) s = .next { s with
      fault := .unknownSweepType, faultInfo := 3#3, phase := .terminated, cnt := 0#5 }) ∧
    (∀ cnt st trig off len ts, exec (.hdrIll47 cnt st trig off len ts) s = .next { s with
      fault := .unknownSweepType, faultInfo := st, phase := .terminated, cnt := 0#5 }) ∧
    (∀ h : Header, 2 < h.sweepType.toNat → ∃ t, exec (headerInstr h) s = .next t ∧
      t = { s with fault := .unknownSweepType, faultInfo := h.sweepType, phase := .terminated, cnt := 0#5 } ∧
      (s.rst = false → ∀ u : State, step t ≠ .next u))

/-- 40_header_decoder.md section 1 (R100 for dataOffset = 16) and 44_frame_orchestrator.md section 2 (R165; the floor is
decision D9): the record emitted, and the frame registers loaded, for each sweep type. Everything else keeps its value. -/
def Obligations.NormalHeaderLoadsFrame : Prop :=
  ∀ (cnt : U12) (trig : BitVec 1) (len : U32) (ts : U64) (s : State),
    exec (.hdrPeak cnt trig len ts) s = .next { s with
      cnt := 0#5, sweep := .peak, rem := BitVec.ofNat 32 (len.toNat / 8), first := false, errFrame := false
      phase := if len.toNat < 8 then .awaitingFlag else .dataOffsetNormal
      output := s.output ++ [.headerInfo ⟨cnt, .peak, trig, 16#16, len, ts⟩] } ∧
    exec (.hdrSpec cnt trig len ts) s = .next { s with
      cnt := 0#5, sweep := .spectral, rem := BitVec.ofNat 32 (len.toNat / 8), first := true, errFrame := false
      phase := if len.toNat < 8 then .awaitingFlag else .dataOffsetNormal
      output := s.output ++ [.headerInfo ⟨cnt, .spectral, trig, 16#16, len, ts⟩] } ∧
    exec (.hdrTspk cnt trig len ts) s = .next { s with
      cnt := 0#5, sweep := .timestampedPeak, rem := BitVec.ofNat 32 (len.toNat / 12), first := false, errFrame := false
      phase := if len.toNat < 12 then .awaitingFlag else .dataOffsetNormal
      output := s.output ++ [.headerInfo ⟨cnt, .timestampedPeak, trig, 16#16, len, ts⟩] }

/-- 40_header_decoder.md section 1 (R100 for dataOffset ≠ 16; emission and the cleared registers are decisions D10, D30):
the HeaderInfo is emitted, SWEEP is the header's own, REM and FIRST are cleared, ERRFRAME is set. Everything else keeps its
value. -/
def Obligations.ErrorHeaderOpensErrorFrame : Prop :=
  ∀ (cnt : U12) (trig : BitVec 1) (off : U16) (len : U32) (ts : U64) (s : State), off ≠ 16#16 →
    exec (.hdrPeakE cnt trig off len ts) s = .next { s with
      cnt := 0#5, sweep := .peak, rem := 0#32, first := false, errFrame := true, phase := .dataOffsetError
      output := s.output ++ [.headerInfo ⟨cnt, .peak, trig, off, len, ts⟩] } ∧
    exec (.hdrSpecE cnt trig off len ts) s = .next { s with
      cnt := 0#5, sweep := .spectral, rem := 0#32, first := false, errFrame := true, phase := .dataOffsetError
      output := s.output ++ [.headerInfo ⟨cnt, .spectral, trig, off, len, ts⟩] } ∧
    exec (.hdrTspkE cnt trig off len ts) s = .next { s with
      cnt := 0#5, sweep := .timestampedPeak, rem := 0#32, first := false, errFrame := true, phase := .dataOffsetError
      output := s.output ++ [.headerInfo ⟨cnt, .timestampedPeak, trig, off, len, ts⟩] }

/-- R103: `decode_header` and HDR agree: an unknown sweep type is the fault of that value and no record, and otherwise the
six fields are those of the HeaderInfo that HDR emits. -/
def Obligations.DecodeHeaderAgreesWithHdr : Prop :=
  ∀ (bytes : List Byte) (s : State), bytes.length = 16 →
    ∃ i t, decode .header bytes = .ok i ∧ exec i s = .next t ∧
      ((∃ st, decodeHeader bytes = .error (.unknownSweepType st) ∧ 2 < st.toNat ∧ t.output = s.output ∧
          t.fault = .unknownSweepType ∧ t.faultInfo = st) ∨
       (∃ h r, decodeHeader bytes = .ok h ∧ h.sweepType.toNat ≤ 2 ∧ t.output = s.output ++ [.headerInfo r] ∧
          t.fault = s.fault ∧ r.packetCounter = h.packetCounter ∧ (SweepType.code r.sweepType).toNat = h.sweepType.toNat ∧
          r.triggerMode = h.triggerMode ∧ r.dataOffset = h.dataOffset ∧ r.dataLength = h.dataLength ∧
          r.timeStamp = h.timeStamp))

/-- R106: the header round trip, for any bytes after the two of `info`. -/
def Obligations.HeaderInfoRoundTrip : Prop :=
  ∀ (counter sweepType triggerMode : Nat) (tail : List Byte),
    counter ≤ 0xFFF → sweepType ≤ 2 → triggerMode ≤ 1 → tail.length = 14 →
    let info := (triggerMode <<< 15) ||| (sweepType <<< 12) ||| counter
    ∃ h, decodeHeader (bytesOf 2 info ++ tail) = .ok h ∧ h.packetCounter.toNat = counter ∧
      h.sweepType.toNat = sweepType ∧ h.triggerMode.toNat = triggerMode

/-- 40_header_decoder.md section 1 (R104; floor division and the signed result are decision D20): `unixSeconds` is exact in
the integers for every time stamp. -/
def Obligations.UnixSecondsExact : Prop :=
  ∀ t : U64, (unixSeconds t).toInt = ((t.toNat / 1000000000 : Nat) : Int) - 2208988800

/-! ## The payload -/

/-- 41_payload_decoders.md section 1 (R110): PEAK's record, with the ids and the wavelength by the shifts and masks of
42_field_extractors.md sections 1 and 2 (the word order is decision D6) and the force of 43_calibration.md section 3 (that
it is attached to the record is decision D15), and ElementDone. Everything else keeps its value; `draws` is the model's own
(assumption log 8). -/
def Obligations.PeakElementRecord : Prop :=
  ∀ (w0 w1 : U32) (s : State), s.rem ≠ 0#32 →
    let id := ((w0 &&& 0xFF#32).setWidth 8, ((w0 >>> 8) &&& 0x0F#32).setWidth 4, ((w0 >>> 12) &&& 0x0F#32).setWidth 4)
    let wl : F64 := w1 ++ ((w0 &&& 0xFFFF0000#32) ||| 0x00007FFF#32)
    let force := calibrate s.cal s.draws id.2.2 id.2.1 id.1 wl
    exec (.peak w0 w1) s = .next { s with
      cnt := 0#5, rem := s.rem - 1#32, draws := s.draws + 1
      phase := if s.rem = 1#32 then .awaitingFlag else .dataOffsetNormal
      output := s.output ++ [.peak ⟨id.1, id.2.1, id.2.2, wl, force.1, force.2⟩] }

/-- 41_payload_decoders.md section 2 (R111; that both the raw and the scaled word are carried is decision D23): TSPK's
record is a PeakRecord (ids and wavelength of 42_field_extractors.md sections 1 and 2, decision D6; the force of
43_calibration.md section 3, decision D15) and the sub-timestamp, and ElementDone. Everything else keeps its value; `draws`
is the model's own (assumption log 8). -/
def Obligations.TimestampedPeakElementRecord : Prop :=
  ∀ (w0 w1 w2 : U32) (s : State), s.rem ≠ 0#32 →
    let id := ((w0 &&& 0xFF#32).setWidth 8, ((w0 >>> 8) &&& 0x0F#32).setWidth 4, ((w0 >>> 12) &&& 0x0F#32).setWidth 4)
    let wl : F64 := w1 ++ ((w0 &&& 0xFFFF0000#32) ||| 0x00007FFF#32)
    let force := calibrate s.cal s.draws id.2.2 id.2.1 id.1 wl
    exec (.tspk w0 w1 w2) s = .next { s with
      cnt := 0#5, rem := s.rem - 1#32, draws := s.draws + 1
      phase := if s.rem = 1#32 then .awaitingFlag else .dataOffsetNormal
      output := s.output ++ [.timestampedPeak
        ⟨⟨id.1, id.2.1, id.2.2, wl, force.1, force.2⟩, w2, fmul 0#64 (u32ToF64 w2) 0x3E012E0BE826D695#64⟩] }

/-- 41_payload_decoders.md section 3 (R112; that `pointCount` governs nothing is decision D24): SINFO's record, FIRST
cleared, and ElementDone, whatever `pointCount` is. -/
def Obligations.SpectralInfoRecord : Prop :=
  ∀ (w0 n : U32) (s : State), s.rem ≠ 0#32 →
    exec (.sinfo w0 n) s = .next { s with
      cnt := 0#5, rem := s.rem - 1#32, first := false
      phase := if s.rem = 1#32 then .awaitingFlag else .dataOffsetNormal
      output := s.output ++ [.spectralInfo ⟨(w0 &&& 0xFF#32).setWidth 8, ((w0 >>> 8) &&& 0x0F#32).setWidth 4,
        ((w0 >>> 12) &&& 0x0F#32).setWidth 4, n⟩] }

/-- R113: SSAMP's record carries the four 16-bit patterns unchanged, each of a value in -32768..32767, and ElementDone. -/
def Obligations.SpectralSampleRecord : Prop :=
  ∀ (a1 a2 a3 a4 : U16) (s : State), s.rem ≠ 0#32 →
    exec (.ssamp a1 a2 a3 a4) s = .next { s with
      cnt := 0#5, rem := s.rem - 1#32
      phase := if s.rem = 1#32 then .awaitingFlag else .dataOffsetNormal
      output := s.output ++ [.spectralSample ⟨a1, a2, a3, a4⟩] } ∧
    ∀ a ∈ [a1, a2, a3, a4], -32768 ≤ amplitude a ∧ amplitude a ≤ 32767 ∧
      amplitude a = if a.toNat < 0x8000 then (a.toNat : Int) else (a.toNat : Int) - 0x10000

/-- R164: after any number of elements not above REM, CNT is 0, REM has gone down by that number, and the flag is due
exactly when REM is used up. -/
def Obligations.ElementDoneCountsDown : Prop :=
  ∀ (is : List Instr) (s : State), is ≠ [] → (∀ i ∈ is, isElement i = true) → is.length ≤ s.rem.toNat →
    ∃ t, execAll is s = .next t ∧ t.cnt = 0#5 ∧ t.rem.toNat = s.rem.toNat - is.length ∧
      t.phase = if is.length = s.rem.toNat then .awaitingFlag else .dataOffsetNormal

/-- 41_payload_decoders.md section 4 (R114; what an ErrorRecord carries is decision D21): ERR's record for each row, and the
flag due. Everything else keeps its value. -/
def Obligations.ErrorPayloadRecord : Prop :=
  ∀ (e d : U32) (s : State),
    let next := fun (id : U32) (cls : ErrorClass) => { s with
      cnt := 0#5, phase := .awaitingFlag
      output := s.output ++ [.error ⟨id, d, cls, (d &&& 0xFF#32).setWidth 8, ((d >>> 8) &&& 0x0F#32).setWidth 4,
        ((d >>> 12) &&& 0x0F#32).setWidth 4⟩] }
    exec (.errMissing d) s = .next (next 500#32 .missingPeak) ∧
    exec (.errMulti d) s = .next (next 501#32 .multiplePeaks) ∧
    (e ≠ 500#32 → e ≠ 501#32 → exec (.errInternal e d) s = .next (next e .internal))

/-- R115: the class of an error id, on the full 32-bit value, with its code. -/
def Obligations.ErrorClassification : Prop :=
  ∀ e : U32, (ErrorClass.code (classifyError e)).toNat =
    if e.toNat = 0x000001F4 then 0 else if e.toNat = 0x000001F5 then 1 else 2

/-- R116: FLAG's record and the next PHASE. Everything else keeps its value, ERRFRAME too. -/
def Obligations.FlagRecordAndNextPhase : Prop :=
  ∀ (sc r : U32) (s : State),
    exec (.flag sc r) s = .next { s with
      cnt := 0#5
      phase := if s.stopAfterErrorFrame = true ∧ s.errFrame = true then .terminated else .awaitingHeader
      output := s.output ++ [.flag ⟨sc, r⟩] }

/-! ## Whole-machine rules -/

/-- R202: PEAK, TSPK, SINFO, SSAMP, ERR and FLAG raise no fault for any operands in any state. -/
def Obligations.PayloadAndFlagNeverFault : Prop :=
  ∀ (i : Instr) (s : State), i.context ≠ .header →
    ∃ t, exec i s = .next t ∧ t.fault = s.fault ∧ t.faultInfo = s.faultInfo

/-- R203: no step writes the reserved code, since every data offset but 16 indicates an error frame. -/
def Obligations.UnexpectedDataOffsetNeverRaised : Prop :=
  (∀ s t : State, step s = .next t → s.fault ≠ .unexpectedDataOffset → t.fault ≠ .unexpectedDataOffset) ∧
  (∀ (h : Header) (s : State), h.sweepType.toNat ≤ 2 → h.dataOffset ≠ 16#16 →
    ∃ t, exec (headerInstr h) s = .next t ∧ t.phase = .dataOffsetError ∧ t.errFrame = true ∧ t.fault = s.fault)

/-- R167, the complete transition relation of PHASE: for a step that consumes a token, where PHASE goes, what FAULT
becomes, and which record, if any, is emitted; and Terminated has no step. REM is not 0 inside a normal payload, which
State.Inv gives. -/
def Obligations.PhaseTransitions : Prop :=
  (∀ s t : State, s.rst = false → s.phase = .terminated → step s ≠ .next t) ∧
  ∀ (s t : State) (tok : Token) (c : Context), s.rst = false → s.context = some c → s.input = tok :: t.input →
    (s.phase = .dataOffsetNormal → s.rem ≠ 0#32) → step s = .next t →
    let emitted := fun (tag : BitVec 3) => ∃ r, t.output = s.output ++ [r] ∧ r.tag = tag
    let silent := t.output = s.output
    match tok with
    | .endOfStream =>
      silent ∧ t.phase = .terminated ∧
        t.fault = if s.phase = .awaitingHeader ∧ s.cnt = 0#5 then s.fault else .ioShortRead
    | .ioError => silent ∧ t.phase = .terminated ∧ t.fault = .ioFailure
    | .byte b =>
      if s.cnt.toNat + 1 < c.size then silent ∧ t.phase = s.phase ∧ t.fault = s.fault
      else
        match s.phase with
        | .awaitingHeader =>
          let h := headerFields (unitValue (s.buf.toList.take 15 ++ [b]))
          if 2 < h.sweepType.toNat then
            silent ∧ t.phase = .terminated ∧ t.fault = .unknownSweepType ∧ t.faultInfo = h.sweepType
          else emitted 0 ∧ t.fault = s.fault ∧
            t.phase = if h.dataOffset ≠ 16#16 then .dataOffsetError
              else if h.dataLength.toNat < (if h.sweepType = 2#3 then 12 else 8) then .awaitingFlag
              else .dataOffsetNormal
        | .dataOffsetNormal =>
          emitted (match c with | .peak => 1 | .tspk => 2 | .sinfo => 3 | _ => 4) ∧ t.fault = s.fault ∧
            t.phase = if s.rem = 1#32 then .awaitingFlag else .dataOffsetNormal
        | .dataOffsetError => emitted 5 ∧ t.fault = s.fault ∧ t.phase = .awaitingFlag
        | .awaitingFlag =>
          emitted 6 ∧ t.fault = s.fault ∧
            t.phase = if s.stopAfterErrorFrame = true ∧ s.errFrame = true then .terminated else .awaitingHeader
        | .terminated => False

/-- 44_frame_orchestrator.md section 5 (R175 with R207, which the spec marks derived): the five ways into Terminated, each
with its token, its place and its fault. -/
def Obligations.FiveWaysToTerminate : Prop :=
  ∀ s t : State, s.rst = false → step s = .next t → t.phase = .terminated →
    (∃ rest, s.input = .endOfStream :: rest ∧ s.phase = .awaitingHeader ∧ s.cnt = 0#5 ∧ t.fault = s.fault) ∨
    (∃ b rest, s.input = .byte b :: rest ∧ s.phase = .awaitingFlag ∧ s.cnt = 7#5 ∧ s.stopAfterErrorFrame = true ∧
      s.errFrame = true ∧ t.fault = s.fault) ∨
    (∃ rest, s.input = .endOfStream :: rest ∧ (s.phase ≠ .awaitingHeader ∨ s.cnt ≠ 0#5) ∧ t.fault = .ioShortRead ∧
      t.faultInfo = 0#3) ∨
    (∃ rest, s.input = .ioError :: rest ∧ t.fault = .ioFailure ∧ t.faultInfo = 0#3) ∨
    (∃ b rest, s.input = .byte b :: rest ∧ s.phase = .awaitingHeader ∧ s.cnt = 15#5 ∧ t.fault = .unknownSweepType ∧
      decodeHeader (s.buf.toList.take 15 ++ [b]) = .error (.unknownSweepType t.faultInfo))

/-- 20_memory.md section 2 (R46): outside reset the output only grows, by at most one record a step, and only in a step
that consumes the last byte of a unit; no record already emitted is changed. -/
def Obligations.RecordsAppendOnly : Prop :=
  ∀ s t : State, s.rst = false → step s = .next t →
    t.output = s.output ∨
    ∃ r b c, t.output = s.output ++ [r] ∧ s.input = .byte b :: t.input ∧ s.context = some c ∧
      s.cnt.toNat + 1 = c.size ∧ t.cnt = 0#5 ∧ t.fault = s.fault

/-- 20_memory.md section 3 (R49, decision D28) and 00_scope.md section 4 (R6): no step changes a parameter (that they are
fields of State is assumption log 3); nor the level of the reset input, which the integrator alone drives
(70_reset_and_hazards.md sections 1 and 4, R220, R229; that the level is a field is assumption log 4). -/
def Obligations.ParametersNeverChange : Prop :=
  ∀ s t : State, step s = .next t →
    t.cal = s.cal ∧ t.stopAfterErrorFrame = s.stopAfterErrorFrame ∧ t.rst = s.rst

/-- 70_reset_and_hazards.md section 3 (R226): what a run from a frame boundary shows depends on the tokens and the parameters
only, never on what an earlier frame left in SWEEP, REM, FIRST, ERRFRAME or BUF. Two states at a frame boundary that differ
in these alone agree on what is live; two states that agree on what is live answer alike in a step; hence in any number of
steps. They agree on the index of the free values too, since two draws may differ (assumption logs 6 to 8). -/
def Obligations.FrameIndependentOfEarlierFrames : Prop :=
  (∀ s t : State, s.phase = .awaitingHeader → s.cnt = 0#5 →
    t = { s with buf := t.buf, sweep := t.sweep, rem := t.rem, first := t.first, errFrame := t.errFrame } →
    State.SameLive s t) ∧
  (∀ s t : State, State.SameLive s t → Alike (step s) (step t)) ∧
  (∀ (s t : State) (k : Nat), State.SameLive s t →
    Alike (Host.Core.run Sys2Proof.core k s) (Host.Core.run Sys2Proof.core k t))

/-! ## Whole frames -/

/-- 44_frame_orchestrator.md section 3 (R169): an error frame is 16 + 8 + 8 bytes, whatever `dataLength` and the sweep type
are; it emits HeaderInfo, ErrorRecord and FlagInfo and raises no fault. The PHASE it ends in is that of R168, whose switch
is decision D13. -/
def Obligations.ErrorFrameRun : Prop :=
  ∀ (s : State) (h : Header) (e d sc r : U32) (rest : List Token),
    s.atBoundary = true → h.sweepType.toNat ≤ 2 → h.dataOffset ≠ 16#16 →
    s.input = unitTokens [headerInstr h, errorInstr e d, .flag sc r] ++ rest →
    ∃ t hi er, Host.Core.run Sys2Proof.core 32 s = (.next t : Result) ∧ t.input = rest ∧
      t.output = s.output ++ [.headerInfo hi, .error er, .flag ⟨sc, r⟩] ∧ hi.dataLength = h.dataLength ∧
      hi.dataOffset = h.dataOffset ∧ (SweepType.code hi.sweepType).toNat = h.sweepType.toNat ∧ er.errorId = e ∧
      er.description = d ∧ t.fault = s.fault ∧ t.cnt = 0#5 ∧
      t.phase = if s.stopAfterErrorFrame = true then .terminated else .awaitingHeader

/-- 41_payload_decoders.md section 6 (R117, which the spec marks derived): a Spectral frame of `8 + 8k` bytes emits one
SpectralInfo and `k` SpectralSamples, in order, whatever `pointCount` says, and then reads the flag. -/
def Obligations.SpectralFrameRun : Prop :=
  ∀ (s : State) (cnt : U12) (trig : BitVec 1) (len : U32) (ts : U64) (w0 n sc r : U32) (samples : List SpectralSample)
    (rest : List Token),
    s.atBoundary = true → len.toNat = 8 + 8 * samples.length →
    s.input = unitTokens ([.hdrSpec cnt trig len ts, .sinfo w0 n] ++
      samples.map (fun a => .ssamp a.amp1 a.amp2 a.amp3 a.amp4) ++ [.flag sc r]) ++ rest →
    ∃ t, Host.Core.run Sys2Proof.core (16 + len.toNat + 8) s = (.next t : Result) ∧ t.input = rest ∧
      t.output = s.output ++ ([.headerInfo ⟨cnt, .spectral, trig, 16#16, len, ts⟩,
        .spectralInfo ⟨sensorId w0, fiberId w0, channelId w0, n⟩] ++ samples.map Record.spectralSample ++
        [.flag ⟨sc, r⟩]) ∧
      t.phase = .awaitingHeader ∧ t.cnt = 0#5 ∧ t.fault = s.fault

/-- 41_payload_decoders.md section 6 (R118, which the spec marks derived) and 44_frame_orchestrator.md section 2 (R166,
decision D9): a Peak frame yields `dataLength / 8` PeakRecords between its HeaderInfo and its FlagInfo, the k-th one
calibrated with the k-th free value; remainder bytes are not skipped. The free values and their index are the model's
(assumption logs 6, 7 and 8). -/
def Obligations.PeakFrameRun : Prop :=
  ∀ (s : State) (cnt : U12) (trig : BitVec 1) (len : U32) (ts : U64) (sc r : U32) (peaks : List (U32 × U32))
    (rest : List Token),
    s.atBoundary = true → peaks.length = len.toNat / 8 →
    s.input = unitTokens ([.hdrPeak cnt trig len ts] ++ peaks.map (fun p => .peak p.1 p.2) ++ [.flag sc r]) ++ rest →
    ∃ t, Host.Core.run Sys2Proof.core (16 + 8 * peaks.length + 8) s = (.next t : Result) ∧ t.input = rest ∧
      t.output = s.output ++ ([.headerInfo ⟨cnt, .peak, trig, 16#16, len, ts⟩] ++
        peaks.mapIdx (fun k p => .peak (peakRecord { s with draws := s.draws + k } p.1 p.2)) ++ [.flag ⟨sc, r⟩]) ∧
      t.phase = .awaitingHeader ∧ t.cnt = 0#5 ∧ t.fault = s.fault

/-- As PeakFrameRun, for the 12-byte elements of a TimestampedPeak frame (R118, which the spec marks derived): it yields
`dataLength / 12` TimestampedPeakRecords. The free values and their index are the model's (assumption logs 6, 7 and 8). -/
def Obligations.TimestampedPeakFrameRun : Prop :=
  ∀ (s : State) (cnt : U12) (trig : BitVec 1) (len : U32) (ts : U64) (sc r : U32) (peaks : List (U32 × U32 × U32))
    (rest : List Token),
    s.atBoundary = true → peaks.length = len.toNat / 12 →
    s.input = unitTokens ([.hdrTspk cnt trig len ts] ++ peaks.map (fun p => .tspk p.1 p.2.1 p.2.2) ++ [.flag sc r]) ++
      rest →
    ∃ t, Host.Core.run Sys2Proof.core (16 + 12 * peaks.length + 8) s = (.next t : Result) ∧ t.input = rest ∧
      t.output = s.output ++ ([.headerInfo ⟨cnt, .timestampedPeak, trig, 16#16, len, ts⟩] ++
        peaks.mapIdx (fun k p => .timestampedPeak
          ⟨peakRecord { s with draws := s.draws + k } p.1 p.2.1, p.2.2, subTimestampSeconds p.2.2⟩) ++
        [.flag ⟨sc, r⟩]) ∧
      t.phase = .awaitingHeader ∧ t.cnt = 0#5 ∧ t.fault = s.fault

/-! ## Encoding -/

/-- 30_encoding.md sections 2 to 5: no bit of an encoding is dropped: decoding what the encoder writes gives the
instruction back, for every well-formed instruction and every operand. -/
def Obligations.DecodeOfEncode : Prop := ∀ i : Instr, i.wellFormed = true → decode i.context (encode i) = .ok i

/-- 30_encoding.md sections 2 to 5: every unit of the right length has exactly one meaning in its context, a well-formed
instruction whose encoding is the unit; bytes of another length have none. -/
def Obligations.EveryUnitHasOneMeaning : Prop :=
  ∀ (c : Context) (bytes : List Byte),
    (bytes.length = c.size → ∃ i, decode c bytes = .ok i ∧ i.wellFormed = true ∧ i.context = c ∧ encode i = bytes) ∧
    (bytes.length < c.size → decode c bytes = .error .shortUnit) ∧
    (c.size < bytes.length → decode c bytes = .error .longUnit)

/-- 30_encoding.md section 5 (R73, decision D19): the decoder gives the row that the opcode table's masks and priorities
select. -/
def Obligations.DecoderSelectsTableRow : Prop :=
  ∀ (c : Context) (u : BitVec 128), (selectRow c u).map OpcodeRow.mnemonic = some (decodeUnit c u).mnemonic

/-- 30_encoding.md section 5 (R73, decision D19): two rows of one context and one priority never both match. -/
def Obligations.TableRowsDoNotOverlap : Prop :=
  ∀ r ∈ opcodeRows, ∀ q ∈ opcodeRows, r ≠ q → r.priority = q.priority →
    ∀ (c : Context) (u : BitVec 128), r.applies c u = true → q.applies c u = false

/-- 20_memory.md section 4 (R50, decision D5) and R63, R64: the header's fields are little-endian readings of its bytes, and
the three fields of `info` are its masked and shifted bits. -/
def Obligations.HeaderBytesLittleEndian : Prop :=
  ∀ b0 b1 b2 b3 b4 b5 b6 b7 b8 b9 b10 b11 b12 b13 b14 b15 : Byte,
    let info : U16 := b1 ++ b0
    headerFields (unitValue [b0, b1, b2, b3, b4, b5, b6, b7, b8, b9, b10, b11, b12, b13, b14, b15]) =
      { packetCounter := (info &&& 0x0FFF#16).setWidth 12
        sweepType := ((info &&& 0x7000#16) >>> 12).setWidth 3
        triggerMode := ((info &&& 0x8000#16) >>> 15).setWidth 1
        dataOffset := b3 ++ b2
        dataLength := b7 ++ b6 ++ b5 ++ b4
        timeStamp := b15 ++ b14 ++ b13 ++ b12 ++ b11 ++ b10 ++ b9 ++ b8 }

/-- 20_memory.md section 4 (R50, decision D5) and R66 to R71: the words and amplitudes of every other unit are
little-endian readings of its bytes at their byte offsets. -/
def Obligations.ElementBytesLittleEndian : Prop :=
  ∀ b0 b1 b2 b3 b4 b5 b6 b7 b8 b9 b10 b11 : Byte,
    let w0 : U32 := b3 ++ b2 ++ b1 ++ b0
    let w1 : U32 := b7 ++ b6 ++ b5 ++ b4
    let w2 : U32 := b11 ++ b10 ++ b9 ++ b8
    let eight := [b0, b1, b2, b3, b4, b5, b6, b7]
    decode .peak eight = .ok (.peak w0 w1) ∧ decode .sinfo eight = .ok (.sinfo w0 w1) ∧
    decode .flag eight = .ok (.flag w0 w1) ∧ decode .errorPayload eight = .ok (errorInstr w0 w1) ∧
    decode .ssamp eight = .ok (.ssamp (b1 ++ b0) (b3 ++ b2) (b5 ++ b4) (b7 ++ b6)) ∧
    decode .tspk (eight ++ [b8, b9, b10, b11]) = .ok (.tspk w0 w1 w2)

/-- 30_encoding.md sections 2 and 3: units written out byte by byte decode to what they stand for (a sanity check of the
decoder, one for each shape: two headers, then PEAK, TSPK, SINFO, SSAMP, ERR and FLAG). -/
def Obligations.WrittenOutUnitsDecode : Prop :=
  decode .header [0xFF, 0xAF, 0x10, 0, 0x18, 0, 0, 0, 0xFF, 0xFF, 0xFF, 0xFF, 0xFF, 0xFF, 0xFF, 0xFF] =
    .ok (.hdrTspk 4095 1 24 0xFFFFFFFFFFFFFFFF) ∧
  decode .header [0xBC, 0xFA, 0, 0, 0, 0, 0, 0, 0, 0, 0, 0, 0, 0, 0, 0] = .ok (.hdrIll47 2748 7 1 0 0 0) ∧
  decode .peak [0x34, 0x12, 0x66, 0xF9, 0xA0, 0x01, 0xBA, 0x3E] = .ok (.peak 0xF9661234 0x3EBA01A0) ∧
  decode .tspk [0x34, 0x12, 0, 0, 0, 0, 0xF0, 0x3F, 0, 0x94, 0x35, 0x77] = .ok (.tspk 0x1234 0x3FF00000 2000000000) ∧
  decode .sinfo [0x05, 0x21, 0xEF, 0xBE, 0x08, 0, 0, 0] = .ok (.sinfo 0xBEEF2105 8) ∧
  decode .ssamp [0x01, 0, 0xFF, 0xFF, 0, 0x80, 0xFF, 0x7F] = .ok (.ssamp 0x0001 0xFFFF 0x8000 0x7FFF) ∧
  decode .errorPayload [0xF5, 0x01, 0, 0, 0x05, 0x21, 0xFE, 0xCA] = .ok (.errMulti 0xCAFE2105) ∧
  decode .flag [0x65, 0, 0, 0, 0xEF, 0xBE, 0xAD, 0xDE] = .ok (.flag 101 0xDEADBEEF)

/-- 30_encoding.md section 8 (R84, decision D19): the pseudo-units decode to their ids and to the pattern with its low 16
bits replaced by the sentinel. -/
def Obligations.PseudoUnitsOverlayIds : Prop :=
  ∀ (c f : U4) (k : Byte) (p : F64) (d : U32),
    ∃ w0 w1, peakId c f k p = .peak w0 w1 ∧ tspkId c f k p d = .tspk w0 w1 d ∧ sensorId w0 = k ∧ fiberId w0 = f ∧
      channelId w0 = c ∧ wavelength w0 w1 = p.extractLsb' 16 48 ++ 0x7FFF#16

/-! ## Field extractors -/

/-- R130, R131, R132 and R135: the ids are the stated shifts and masks, bounded, and together exactly the low 16 bits. -/
def Obligations.IdFieldsLaw : Prop :=
  ∀ w0 : U32,
    (sensorId w0).toNat = (w0 &&& 0xFF#32).toNat ∧ (fiberId w0).toNat = ((w0 >>> 8) &&& 0x0F#32).toNat ∧
    (channelId w0).toNat = ((w0 >>> 12) &&& 0x0F#32).toNat ∧
    (sensorId w0).toNat < 256 ∧ (fiberId w0).toNat < 16 ∧ (channelId w0).toNat < 16 ∧
    ((channelId w0).setWidth 32 <<< 12) ||| ((fiberId w0).setWidth 32 <<< 8) ||| (sensorId w0).setWidth 32 =
      w0 &&& 0xFFFF#32

/-- R136: for fixed word1 the wavelength depends on word0 only through its upper half. -/
def Obligations.WavelengthMaskLaw : Prop :=
  ∀ (w0 w1 : U32) (x : U16),
    wavelength w0 w1 = wavelength ((w0 &&& 0xFFFF0000#32) ||| x.setWidth 32) w1 ∧
    wavelength w0 w1 = wavelength (w0 ||| 0xFFFF#32) w1 ∧
    (∀ v0 : U32, v0.extractLsb' 16 16 = w0.extractLsb' 16 16 → wavelength v0 w1 = wavelength w0 w1)

/-- 42_field_extractors.md section 2 (R133; the word order is decision D6): with the element's first eight bytes read as one
64-bit value, the wavelength is that value with its low 16 bits replaced; so it is never a zero and never an infinity. -/
def Obligations.WavelengthOfUnit : Prop :=
  ∀ w0 w1 : U32,
    wavelength w0 w1 = (((w1 ++ w0 : BitVec 64) &&& 0xFFFFFFFFFFFF0000#64) ||| 0x7FFF#64) ∧
    f64IsZero (wavelength w0 w1) = false ∧ f64IsInf (wavelength w0 w1) = false

/-- 42_field_extractors.md section 3 (R134; binary64 and the constant are decisions D7, D8, D23): the sub-timestamp is never
negative, NaN or infinite, and the rule's corner cases. -/
def Obligations.SubTimestampIsFiniteNonNegative : Prop :=
  (∀ w2 : U32, f64Sign (subTimestampSeconds w2) = false ∧ f64IsFinite (subTimestampSeconds w2) = true) ∧
  subTimestampSeconds 0#32 = 0#64 ∧ subTimestampSeconds 1#32 = 0x3E012E0BE826D695#64 ∧
  subTimestampSeconds 2000000000#32 = 0x3FF0000000000000#64 ∧
  subTimestampSeconds 0xFFFFFFFF#32 = 0x40012E0BE815A889#64

/-! ## Calibration -/

/-- 43_calibration.md section 1 (R143, decision D8): the derived constants are what the block's own operations make of the
literal ones, whatever the NaN bits. -/
def Obligations.ConstantsAreComputed : Prop :=
  ∀ nan : F64, fsub nan cOne cPe = cDen ∧ fdiv nan cOne c460 = cInv460 ∧ fdiv nan cInv460 cSens = cK

/-- 43_calibration.md section 1 (R141, decision D7): the arithmetic. Rounding: a finite result is a nearest binary64 to the
exact quotient, and of two equally near ones the one whose last fraction bit is 0; the result is an infinity exactly from
half a last place above the largest finite value on; the sign is kept. Operations: `fsub`, `fmul` and `fdiv` of finite
operands are the exact result rounded once, `x - x` is +0.0, a finite number that is not zero over a zero is an infinity.
NaN: a NaN operand, inf - inf, 0 / 0, inf / inf and 0 times inf give one. And `u32_to_f64` is exact (42_field_extractors.md
section 3, R134). Magnitudes are in units of 2^-1074. -/
def Obligations.RoundsToNearestEven : Prop :=
  (∀ (sign : Bool) (n d : Nat), 0 < d →
    let r := f64Round sign n d
    let err := fun p : F64 => ((f64Units p : Int) * d - n).natAbs
    f64Sign r = sign ∧
    (f64IsFinite r = false ↔ (2 ^ 54 - 1) * 2 ^ 2044 * d ≤ n) ∧
    (f64IsFinite r = false → r = f64Inf sign) ∧
    (f64IsFinite r = true → ∀ p : F64, f64IsFinite p = true →
      err r ≤ err p ∧ (err r = err p → f64Units p ≠ f64Units r → f64Frac r % 2 = 0))) ∧
  (∀ nan a b : F64, f64IsFinite a = true → f64IsFinite b = true →
    let sign := f64Sign a ^^ f64Sign b
    fmul nan a b = f64Round sign (f64Units a * f64Units b) (2 ^ 1074) ∧
    (f64IsZero b = false → fdiv nan a b = f64Round sign (f64Units a * 2 ^ 1074) (f64Units b)) ∧
    (f64IsZero a = false → f64IsZero b = true → fdiv nan a b = f64Inf sign) ∧
    (f64Value a ≠ f64Value b →
      fsub nan a b = f64Round (decide (f64Value a < f64Value b)) (f64Value a - f64Value b).natAbs 1) ∧
    fsub nan a a = f64Zero false) ∧
  (∀ nan a b : F64,
    (f64IsNaN a = true ∨ f64IsNaN b = true →
      f64IsNaN (fsub nan a b) = true ∧ f64IsNaN (fmul nan a b) = true ∧ f64IsNaN (fdiv nan a b) = true) ∧
    (f64IsInf a = true → f64IsInf b = true →
      (f64Sign a = f64Sign b → f64IsNaN (fsub nan a b) = true) ∧ f64IsNaN (fdiv nan a b) = true) ∧
    (f64IsZero a = true → f64IsZero b = true → f64IsNaN (fdiv nan a b) = true) ∧
    (f64IsZero a = true → f64IsInf b = true →
      f64IsNaN (fmul nan a b) = true ∧ f64IsNaN (fmul nan b a) = true)) ∧
  (∀ w : U32, f64Sign (u32ToF64 w) = false ∧ f64IsFinite (u32ToF64 w) = true ∧
    f64Units (u32ToF64 w) = w.toNat * 2 ^ 1074)

/-- 43_calibration.md section 2 (R144, corner cases; decision D7): the force at the reference is a zero with the reference's
sign, for every finite reference that is not zero. -/
def Obligations.ForceAtReferenceIsZero : Prop :=
  ∀ nan ref : F64, f64IsFinite ref = true → f64IsZero ref = false → computeForce nan ref ref = f64Zero (f64Sign ref)

/-- 43_calibration.md section 2 (R145, which the spec marks derived): for finite operands and a reference that is not zero
the force is no NaN, and its sign is the sign of the shift times the sign of the reference (a zero shift counts as
positive, R144); and for a fixed positive reference it does not fall as the measured wavelength grows. An infinity counts
by its pattern's magnitude, which is above every finite one, and the two zeros are equal. -/
def Obligations.ForceSignLaw : Prop :=
  (∀ nan ref measured : F64, f64IsFinite ref = true → f64IsZero ref = false → f64IsFinite measured = true →
    f64IsNaN (computeForce nan ref measured) = false ∧
    f64Sign (computeForce nan ref measured) = (decide (f64Value measured < f64Value ref) ^^ f64Sign ref)) ∧
  (∀ nan ref low high : F64, f64IsFinite ref = true → f64IsZero ref = false → f64Sign ref = false →
    f64IsFinite low = true → f64IsFinite high = true → f64Value low ≤ f64Value high →
    f64Value (computeForce nan ref low) ≤ f64Value (computeForce nan ref high))

/-- 43_calibration.md sections 1 and 2 (R142, R149, decisions D7, D31): a NaN wavelength or reference gives a NaN force. Which
one is the model's rendering of R142's draw (assumption log 6): every NaN pattern is made from some bits, itself among them,
and is then the force. Under a zero reference these are clauses about the function, not about the block (assumption
log 23). -/
def Obligations.ForceOfNaNIsNaN : Prop :=
  (∀ nan ref measured : F64, f64IsNaN ref = true ∨ f64IsNaN measured = true →
    f64IsNaN (computeForce nan ref measured) = true) ∧
  (∀ p : F64, f64IsNaN p = true → f64NaN p = p) ∧
  (∀ p ref measured : F64, f64IsNaN p = true → f64IsNaN ref = true ∨ f64IsNaN measured = true →
    computeForce p ref measured = p)

/-- 43_calibration.md section 3 (R147, R150; decisions D14, D22): the three outcomes of a lookup. Under a zero reference the
force is the free value of the lookup's index, of which nothing is known (assumption log 7). Else it is the force of section
2 (R144, decision D7): five operations in the written order, each rounded once, with the constants of section 1 (R143,
decision D8); the bits given for a NaN are the model's (assumption log 6). The equation holds of the function under a zero
reference too, where its value means nothing (assumption log 23). -/
def Obligations.CalibrateThreeOutcomes : Prop :=
  ∀ (t : CalTable) (draw : Nat) (c f : U4) (k : Byte) (wl : F64),
    ((calRead t c f k).valid = false → calibrate t draw c f k wl = (false, 0#64)) ∧
    ((calRead t c f k).valid = true →
      ((calRead t c f k).reference = 0x0000000000000000#64 ∨ (calRead t c f k).reference = 0x8000000000000000#64) →
      calibrate t draw c f k wl = (true, Sys2Proof.Config.freeForce draw)) ∧
    ((calRead t c f k).valid = true → (calRead t c f k).reference ≠ 0x0000000000000000#64 →
      (calRead t c f k).reference ≠ 0x8000000000000000#64 →
      calibrate t draw c f k wl = (true, computeForce (Sys2Proof.Config.freeNaN draw) (calRead t c f k).reference wl)) ∧
    (∀ nan reference : F64,
      computeForce nan reference wl =
        fmul nan
          (fdiv nan (fdiv nan (fdiv nan (fsub nan wl reference) reference) 0x3FE70A3D70A3D70A#64) 0x3FB2A3405844A579#64)
          0x408F400000000000#64)

/-- 20_memory.md section 3 (R48, R49; decisions D14, D28), 70_reset_and_hazards.md sections 2 and 4 (R225, R229) and
93_implementation_defined.md U8: while rst = 1 an entry loaded is read back at its key and at no other,
STOP_AFTER_ERROR_FRAME takes the value set, the byte-source is connected anew, and each move changes nothing else; the order
of start-up ends in the reset state with rst = 0 and the new stream, from any state. While rst = 0 there is no such move,
which the model says by a refusal (assumption log 20). That an entry with valid bit 0 reads back its reference, and the
table's canonical form, which State.Inv keeps, are the model's (assumption logs 19 and 17); so is the index of the free
values (assumption log 8). -/
def Obligations.CalibrationTableLoad : Prop :=
  (∀ (s : State) (c f : U4) (k : Byte) (e : CalEntry), CalTable.wf s.cal = true → s.rst = true →
    ∃ t, loadCal c f k e s = .next t ∧ t = { s with cal := t.cal } ∧ CalTable.wf t.cal = true ∧
      calRead t.cal c f k = e ∧
      (∀ (c' f' : U4) (k' : Byte), (c', f', k') ≠ (c, f, k) → calRead t.cal c' f' k' = calRead s.cal c' f' k')) ∧
  (∀ (s : State) (stop : Bool) (tokens : List Token), s.rst = true →
    setStop stop s = .next { s with stopAfterErrorFrame := stop } ∧
    connectSource tokens s = .next { s with input := tokens }) ∧
  (∀ (s : State) (entries : List (U4 × U4 × Byte × CalEntry)) (stop : Bool) (tokens : List Token),
    ∃ t, startUp entries stop tokens s = .next t ∧
      t = { State.reset with
        buf := t.buf, input := tokens, cal := t.cal, stopAfterErrorFrame := stop, draws := s.draws } ∧
      (entries = [] → t.cal = s.cal) ∧
      (CalTable.wf s.cal = true → CalTable.wf t.cal = true ∧
        ∀ (earlier : List (U4 × U4 × Byte × CalEntry)) (c f : U4) (k : Byte) (e : CalEntry),
          entries = earlier ++ [(c, f, k, e)] → calRead t.cal c f k = e)) ∧
  (∀ (s : State) (c f : U4) (k : Byte) (e : CalEntry) (stop : Bool) (tokens : List Token), s.rst = false →
    loadCal c f k e s = .refused .parameterWriteWhileRunning ∧
    setStop stop s = .refused .parameterWriteWhileRunning ∧
    connectSource tokens s = .refused .streamReplacedWhileRunning)

/-! ## The output port -/

/-- 30_encoding.md sections 6 and 7 (R74 to R81, decision D16): each record's tag, and each of its fields at its bits of
out_rec, with zero above the record's width. -/
def Obligations.RecordPackingPositions : Prop :=
  (∀ r : HeaderInfo, let p := (Record.headerInfo r).pack
    (Record.headerInfo r).tag = 0#3 ∧ p.extractLsb' 0 12 = r.packetCounter ∧
    p.extractLsb' 12 2 = SweepType.code r.sweepType ∧ p.extractLsb' 14 1 = r.triggerMode ∧
    p.extractLsb' 15 16 = r.dataOffset ∧ p.extractLsb' 31 32 = r.dataLength ∧ p.extractLsb' 63 64 = r.timeStamp ∧
    p.extractLsb' 127 114 = 0#114) ∧
  (∀ r : PeakRecord, let p := (Record.peak r).pack
    (Record.peak r).tag = 1#3 ∧ p.extractLsb' 0 8 = r.sensorId ∧ p.extractLsb' 8 4 = r.fiberId ∧
    p.extractLsb' 12 4 = r.channelId ∧ p.extractLsb' 16 64 = r.wavelengthBits ∧ p.getLsbD 80 = r.forceValid ∧
    p.extractLsb' 81 64 = r.forceBits ∧ p.extractLsb' 145 96 = 0#96) ∧
  (∀ r : TimestampedPeakRecord, let p := (Record.timestampedPeak r).pack
    (Record.timestampedPeak r).tag = 2#3 ∧ (p.extractLsb' 0 145).setWidth 241 = (Record.peak r.peak).pack ∧
    p.extractLsb' 145 32 = r.subTimestampRaw ∧ p.extractLsb' 177 64 = r.subTimestampSeconds) ∧
  (∀ r : SpectralInfo, let p := (Record.spectralInfo r).pack
    (Record.spectralInfo r).tag = 3#3 ∧ p.extractLsb' 0 8 = r.sensorId ∧ p.extractLsb' 8 4 = r.fiberId ∧
    p.extractLsb' 12 4 = r.channelId ∧ p.extractLsb' 16 32 = r.pointCount ∧ p.extractLsb' 48 193 = 0#193) ∧
  (∀ r : SpectralSample, let p := (Record.spectralSample r).pack
    (Record.spectralSample r).tag = 4#3 ∧ p.extractLsb' 0 16 = r.amp1 ∧ p.extractLsb' 16 16 = r.amp2 ∧
    p.extractLsb' 32 16 = r.amp3 ∧ p.extractLsb' 48 16 = r.amp4 ∧ p.extractLsb' 64 177 = 0#177) ∧
  (∀ r : ErrorRecord, let p := (Record.error r).pack
    (Record.error r).tag = 5#3 ∧ p.extractLsb' 0 32 = r.errorId ∧ p.extractLsb' 32 32 = r.description ∧
    p.extractLsb' 64 2 = ErrorClass.code r.errorClass ∧ p.extractLsb' 66 8 = r.sensorId ∧
    p.extractLsb' 74 4 = r.fiberId ∧ p.extractLsb' 78 4 = r.channelId ∧ p.extractLsb' 82 159 = 0#159) ∧
  (∀ r : FlagInfo, let p := (Record.flag r).pack
    (Record.flag r).tag = 6#3 ∧ p.extractLsb' 0 32 = r.sweepCounter ∧ p.extractLsb' 32 32 = r.reserved ∧
    p.extractLsb' 64 177 = 0#177)

/-- 20_memory.md section 2 (R47, decisions D2, D26): in a step that consumes a token, out_valid is 1 exactly when a record
is emitted, out_tag and out_rec are that record's, and the status outputs are the registers after the step. That out_tag and
out_rec are 0 where nothing is emitted is the model's choice, on which hardware may differ (assumption log 18). -/
def Obligations.OutputPortShowsStep : Prop :=
  ∀ s t : State, s.rst = false → step s = .next t →
    let p := outPort s t
    ((p.outValid = false ∧ t.output = s.output ∧ p.outTag = 0#3 ∧ p.outRec = 0#241) ∨
     (∃ r, p.outValid = true ∧ t.output = s.output ++ [r] ∧ p.outTag = r.tag ∧ p.outRec = r.pack)) ∧
    p.fault = FaultCode.code t.fault ∧ p.faultInfo = t.faultInfo ∧ (p.terminated = true ↔ t.phase = .terminated)
end

