-- ==== Sys2Proof/Laws/Binary64.lean ====
section
/-!
SUPPORT. Laws/Binary64.lean: the fields of a packed pattern, the NaN patterns, and what rounding a quotient does.
-/

namespace Sys2Proof.Machine

/-- A pattern as a number. -/
theorem f64Pack_toNat (sign : Bool) {bits : Nat} (h : bits < 2 ^ 63) :
    (f64Pack sign bits).toNat = sign.toNat * 2 ^ 63 + bits := by
  unfold f64Pack
  rw [BitVec.toNat_append, BitVec.toNat_ofBool, BitVec.toNat_ofNat, Nat.mod_eq_of_lt h, Nat.shiftLeft_eq, Nat.mul_comm,
    ← Nat.two_pow_add_eq_or_of_lt h, Nat.mul_comm]

/-- The sign of a packed pattern. -/
theorem f64Sign_pack (sign : Bool) (bits : Nat) : f64Sign (f64Pack sign bits) = sign := by
  unfold f64Sign f64Pack
  rw [BitVec.getLsbD_append]
  simp

/-- The exponent of a packed pattern. -/
theorem f64Exp_pack (sign : Bool) {bits : Nat} (h : bits < 2 ^ 63) : f64Exp (f64Pack sign bits) = bits / 2 ^ 52 := by
  unfold f64Exp
  rw [BitVec.extractLsb'_toNat, f64Pack_toNat sign h, Nat.shiftRight_eq_div_pow]
  cases sign <;> simp
  all_goals omega

/-- The fraction of a packed pattern. -/
theorem f64Frac_pack (sign : Bool) {bits : Nat} (h : bits < 2 ^ 63) : f64Frac (f64Pack sign bits) = bits % 2 ^ 52 := by
  unfold f64Frac
  rw [BitVec.extractLsb'_toNat, f64Pack_toNat sign h, Nat.shiftRight_zero]
  cases sign <;> simp
  all_goals omega

/-- A pattern is packed from its own fields. -/
theorem f64_eq_pack (p : F64) : p = f64Pack (f64Sign p) (f64Exp p * 2 ^ 52 + f64Frac p) := by
  have h1 : f64Exp p < 2 ^ 11 := BitVec.isLt _
  have h2 : f64Frac p < 2 ^ 52 := BitVec.isLt _
  apply BitVec.eq_of_toNat_eq
  rw [f64Pack_toNat _ (by omega)]
  have hs : (f64Sign p).toNat = p.toNat / 2 ^ 63 := by
    unfold f64Sign
    rw [BitVec.getLsbD, Nat.testBit_eq_decide_div_mod_eq]
    have := p.isLt
    have h : p.toNat / 2 ^ 63 < 2 := by omega
    generalize p.toNat / 2 ^ 63 = b at h
    interval_cases b <;> rfl
  have he : f64Exp p = p.toNat / 2 ^ 52 % 2 ^ 11 := by
    unfold f64Exp; rw [BitVec.extractLsb'_toNat, Nat.shiftRight_eq_div_pow]
  have hf : f64Frac p = p.toNat % 2 ^ 52 := by
    unfold f64Frac; rw [BitVec.extractLsb'_toNat, Nat.shiftRight_zero]
  rw [hs, he, hf]
  have := p.isLt
  omega

/-- The NaN made from any bits is a NaN. -/
theorem f64NaN_isNaN (nan : F64) : f64IsNaN (f64NaN nan) = true := by
  unfold f64NaN
  have h2 : f64Frac nan < 2 ^ 52 := BitVec.isLt _
  generalize hx : (if f64Frac nan = 0 then 2 ^ 51 else f64Frac nan) = x
  have hx' : 0 < x ∧ x < 2 ^ 52 := by split at hx <;> omega
  unfold f64IsNaN
  rw [f64Exp_pack _ (by unfold infBits; omega), f64Frac_pack _ (by unfold infBits; omega)]
  unfold infBits
  simp; omega

/-- Every NaN is its own image. -/
theorem f64NaN_self {p : F64} (h : f64IsNaN p = true) : f64NaN p = p := by
  simp only [f64IsNaN, Bool.and_eq_true, beq_iff_eq, bne_iff_ne] at h
  have := f64_eq_pack p
  rw [h.1] at this
  unfold f64NaN infBits
  rw [if_neg h.2, ← this]

/-- The rounded quotient is at most half a unit from `n / d`, and even when it is exactly that far. -/
theorem roundQuotient_spec {n d : Nat} (hd : 0 < d) :
    2 * roundQuotient n d * d ≤ 2 * n + d ∧ 2 * n ≤ 2 * roundQuotient n d * d + d ∧
      ((2 * roundQuotient n d * d = 2 * n + d ∨ 2 * n = 2 * roundQuotient n d * d + d) → roundQuotient n d % 2 = 0) := by
  have h1 := Nat.div_add_mod n d
  have h2 := Nat.mod_lt n hd
  generalize n / d = q at *
  generalize hr : n % d = r at *
  subst h1
  unfold roundQuotient
  rw [show (d * q + r) / d = q by rw [Nat.mul_add_div hd, Nat.div_eq_of_lt h2]; rfl,
    show (d * q + r) % d = r by rw [Nat.mul_add_mod, Nat.mod_eq_of_lt h2]]
  have e : 2 * q * d = 2 * (d * q) := by ring
  have e1 : 2 * (q + 1) * d = 2 * (d * q) + 2 * d := by ring
  split
  · rw [e1]; omega
  · rw [e]; omega

/-- The rounded quotient is the floor or one more. -/
theorem roundQuotient_mem (n d : Nat) : n / d ≤ roundQuotient n d ∧ roundQuotient n d ≤ n / d + 1 := by
  unfold roundQuotient; split <;> omega

/-- Rounding keeps the sign. -/
theorem f64Sign_round (sign : Bool) (n d : Nat) : f64Sign (f64Round sign n d) = sign := by
  unfold f64Round; simp only; split <;> exact f64Sign_pack _ _

/-- Zero is exact. -/
theorem f64Round_zero (sign : Bool) (d : Nat) : f64Round sign 0 d = f64Zero sign := by
  have : roundQuotient 0 d = 0 := by unfold roundQuotient; simp
  have h : Nat.log2 0 = 0 := by decide
  simp [f64Round, this, h, infBits, f64Zero]

/-- A rounded result is no NaN. -/
theorem f64Round_not_nan (sign : Bool) (n d : Nat) : f64IsNaN (f64Round sign n d) = false := by
  unfold f64Round; simp only
  split
  · unfold f64Inf f64IsNaN
    rw [f64Frac_pack _ (by unfold infBits; omega)]; unfold infBits; simp
  · next h =>
    unfold infBits at h
    unfold f64IsNaN
    rw [f64Exp_pack _ (by omega)]
    simp; omega

end Sys2Proof.Machine
end

