-- ==== Sys2Proof/Laws/Decode.lean ====
section
/-!
SUPPORT. Laws/Decode.lean: byte order, lengths, and when the decoder answers.
-/

namespace Sys2Proof

@[simp] theorem bytesOf_length : ∀ (n v : Nat), (bytesOf n v).length = n
  | 0, _ => rfl
  | n + 1, v => by simp [bytesOf, bytesOf_length n]

/-- Bytes written out least significant first read back as the number, if it fits. -/
theorem leValue_bytesOf : ∀ (n v : Nat), leValue (bytesOf n v) = v % 256 ^ n
  | 0, v => by simp [bytesOf, leValue, Nat.mod_one]
  | n + 1, v => by
    rw [bytesOf, leValue, leValue_bytesOf n, BitVec.toNat_ofNat, Nat.pow_succ' (n := n), Nat.mod_mul]

/-- A byte list reads as a number below 256 to the power of its length. -/
theorem leValue_lt : ∀ bs : List Byte, leValue bs < 256 ^ bs.length
  | [] => by simp [leValue]
  | b :: bs => by
    have h := leValue_lt bs
    have hb := b.isLt
    rw [leValue, List.length_cons, Nat.pow_succ']
    omega

/-- The other round trip: the bytes of the value of a byte list are the list. -/
theorem bytesOf_leValue : ∀ bs : List Byte, bytesOf bs.length (leValue bs) = bs
  | [] => rfl
  | b :: bs => by
    have hb := b.isLt
    have h1 : (b.toNat + 256 * leValue bs) / 256 = leValue bs := by omega
    have h2 : BitVec.ofNat 8 (b.toNat + 256 * leValue bs) = b := by
      apply BitVec.eq_of_toNat_eq
      rw [BitVec.toNat_ofNat]
      omega
    rw [List.length_cons, leValue, bytesOf, h1, h2, bytesOf_leValue bs]

theorem Context.size_pos (c : Context) : 0 < c.size := by cases c <;> decide

theorem Context.size_le (c : Context) : c.size ≤ 16 := by cases c <;> decide

@[simp] theorem encode_length (i : Instr) : (encode i).length = i.context.size := bytesOf_length _ _

/-- The decoder answers an instruction exactly on a list of the context's length. -/
theorem decode_eq_ok {c : Context} {bs : List Byte} {i : Instr} :
    decode c bs = .ok i ↔ bs.length = c.size ∧ decodeUnit c (unitValue bs) = i := by
  unfold decode
  rcases Nat.lt_trichotomy bs.length c.size with h | h | h
  · simp [h, Nat.ne_of_lt h]
  · simp [h]
  · simp [Nat.lt_asymm h, h, Nat.ne_of_gt h]

theorem decode_of_length {c : Context} {bs : List Byte} (h : bs.length = c.size) :
    decode c bs = .ok (decodeUnit c (unitValue bs)) := decode_eq_ok.mpr ⟨h, rfl⟩

theorem headerInstr_context (h : Header) : (headerInstr h).context = .header := by
  unfold headerInstr
  repeat' split
  all_goals rfl

theorem errorInstr_context (e d : U32) : (errorInstr e d).context = .errorPayload := by
  unfold errorInstr
  repeat' split
  all_goals rfl

/-- A decoded unit belongs to the context it was decoded in. -/
theorem decodeUnit_context (c : Context) (u : BitVec 128) : (decodeUnit c u).context = c := by
  cases c <;> first | rfl | exact headerInstr_context _ | exact errorInstr_context _ _

/-! ## The fields of an encoded unit -/

/-- A number of at most sixteen bytes is the unit value of its own bytes. -/
theorem unitValue_bytesOf {n : Nat} {u : BitVec 128} (h : u.toNat < 256 ^ n) :
    unitValue (bytesOf n u.toNat) = u := by
  unfold unitValue
  rw [leValue_bytesOf, Nat.mod_eq_of_lt h]
  simp

theorem headerFields_headerUnit (cnt : U12) (st : BitVec 3) (trig : BitVec 1) (off : U16) (len : U32) (ts : U64) :
    headerFields (headerUnit cnt st trig off len ts) = ⟨cnt, st, trig, off, len, ts⟩ := by
  unfold headerFields headerUnit
  congr 1 <;>
    (repeat (first
      | rw [BitVec.extractLsb'_append_eq_of_le (by decide)]
      | rw [BitVec.extractLsb'_append_eq_of_add_le (by decide)])) <;>
    exact BitVec.extractLsb'_eq_self

theorem wordsUnit_low (a b : U32) : (wordsUnit a b).extractLsb' 0 32 = a := by
  unfold wordsUnit
  rw [BitVec.extractLsb'_setWidth_of_le (by decide), BitVec.extractLsb'_append_eq_of_add_le (by decide)]
  exact BitVec.extractLsb'_eq_self

theorem wordsUnit_high (a b : U32) : (wordsUnit a b).extractLsb' 32 32 = b := by
  unfold wordsUnit
  rw [BitVec.extractLsb'_setWidth_of_le (by decide), BitVec.extractLsb'_append_eq_of_le (by decide)]
  exact BitVec.extractLsb'_eq_self

end Sys2Proof
end

