-- ==== Sys2Proof/Laws/State.lean ====
section
/-!
SUPPORT. Laws/State.lean: what each named update of State does to each field, one lemma per field per update.
-/

namespace Sys2Proof.Machine

section takeTokenLaws

variable (s : State) (ts : List Token)

@[simp] theorem State.takeToken_buf : (s.takeToken ts).buf = s.buf := rfl
@[simp] theorem State.takeToken_cnt : (s.takeToken ts).cnt = s.cnt := rfl
@[simp] theorem State.takeToken_phase : (s.takeToken ts).phase = s.phase := rfl
@[simp] theorem State.takeToken_sweep : (s.takeToken ts).sweep = s.sweep := rfl
@[simp] theorem State.takeToken_rem : (s.takeToken ts).rem = s.rem := rfl
@[simp] theorem State.takeToken_first : (s.takeToken ts).first = s.first := rfl
@[simp] theorem State.takeToken_errFrame : (s.takeToken ts).errFrame = s.errFrame := rfl
@[simp] theorem State.takeToken_fault : (s.takeToken ts).fault = s.fault := rfl
@[simp] theorem State.takeToken_faultInfo : (s.takeToken ts).faultInfo = s.faultInfo := rfl
@[simp] theorem State.takeToken_input : (s.takeToken ts).input = ts := rfl
@[simp] theorem State.takeToken_output : (s.takeToken ts).output = s.output := rfl
@[simp] theorem State.takeToken_rst : (s.takeToken ts).rst = s.rst := rfl
@[simp] theorem State.takeToken_cal : (s.takeToken ts).cal = s.cal := rfl
@[simp] theorem State.takeToken_stopAfterErrorFrame : (s.takeToken ts).stopAfterErrorFrame = s.stopAfterErrorFrame := rfl
@[simp] theorem State.takeToken_draws : (s.takeToken ts).draws = s.draws := rfl

end takeTokenLaws

section emitLaws

variable (s : State) (r : Record)

@[simp] theorem State.emit_buf : (s.emit r).buf = s.buf := rfl
@[simp] theorem State.emit_cnt : (s.emit r).cnt = s.cnt := rfl
@[simp] theorem State.emit_phase : (s.emit r).phase = s.phase := rfl
@[simp] theorem State.emit_sweep : (s.emit r).sweep = s.sweep := rfl
@[simp] theorem State.emit_rem : (s.emit r).rem = s.rem := rfl
@[simp] theorem State.emit_first : (s.emit r).first = s.first := rfl
@[simp] theorem State.emit_errFrame : (s.emit r).errFrame = s.errFrame := rfl
@[simp] theorem State.emit_fault : (s.emit r).fault = s.fault := rfl
@[simp] theorem State.emit_faultInfo : (s.emit r).faultInfo = s.faultInfo := rfl
@[simp] theorem State.emit_input : (s.emit r).input = s.input := rfl
@[simp] theorem State.emit_output : (s.emit r).output = s.output ++ [r] := rfl
@[simp] theorem State.emit_rst : (s.emit r).rst = s.rst := rfl
@[simp] theorem State.emit_cal : (s.emit r).cal = s.cal := rfl
@[simp] theorem State.emit_stopAfterErrorFrame : (s.emit r).stopAfterErrorFrame = s.stopAfterErrorFrame := rfl
@[simp] theorem State.emit_draws : (s.emit r).draws = s.draws := rfl

end emitLaws

section storeByteLaws

variable (s : State) (b : Byte)

@[simp] theorem State.storeByte_buf : (s.storeByte b).buf = s.buf.setIfInBounds s.cnt.toNat b := rfl
@[simp] theorem State.storeByte_cnt : (s.storeByte b).cnt = s.cnt + 1#5 := rfl
@[simp] theorem State.storeByte_phase : (s.storeByte b).phase = s.phase := rfl
@[simp] theorem State.storeByte_sweep : (s.storeByte b).sweep = s.sweep := rfl
@[simp] theorem State.storeByte_rem : (s.storeByte b).rem = s.rem := rfl
@[simp] theorem State.storeByte_first : (s.storeByte b).first = s.first := rfl
@[simp] theorem State.storeByte_errFrame : (s.storeByte b).errFrame = s.errFrame := rfl
@[simp] theorem State.storeByte_fault : (s.storeByte b).fault = s.fault := rfl
@[simp] theorem State.storeByte_faultInfo : (s.storeByte b).faultInfo = s.faultInfo := rfl
@[simp] theorem State.storeByte_input : (s.storeByte b).input = s.input := rfl
@[simp] theorem State.storeByte_output : (s.storeByte b).output = s.output := rfl
@[simp] theorem State.storeByte_rst : (s.storeByte b).rst = s.rst := rfl
@[simp] theorem State.storeByte_cal : (s.storeByte b).cal = s.cal := rfl
@[simp] theorem State.storeByte_stopAfterErrorFrame : (s.storeByte b).stopAfterErrorFrame = s.stopAfterErrorFrame := rfl
@[simp] theorem State.storeByte_draws : (s.storeByte b).draws = s.draws := rfl

end storeByteLaws

section finishUnitLaws

variable (s : State) (p : Phase)

@[simp] theorem State.finishUnit_buf : (s.finishUnit p).buf = s.buf := rfl
@[simp] theorem State.finishUnit_cnt : (s.finishUnit p).cnt = 0#5 := rfl
@[simp] theorem State.finishUnit_phase : (s.finishUnit p).phase = p := rfl
@[simp] theorem State.finishUnit_sweep : (s.finishUnit p).sweep = s.sweep := rfl
@[simp] theorem State.finishUnit_rem : (s.finishUnit p).rem = s.rem := rfl
@[simp] theorem State.finishUnit_first : (s.finishUnit p).first = s.first := rfl
@[simp] theorem State.finishUnit_errFrame : (s.finishUnit p).errFrame = s.errFrame := rfl
@[simp] theorem State.finishUnit_fault : (s.finishUnit p).fault = s.fault := rfl
@[simp] theorem State.finishUnit_faultInfo : (s.finishUnit p).faultInfo = s.faultInfo := rfl
@[simp] theorem State.finishUnit_input : (s.finishUnit p).input = s.input := rfl
@[simp] theorem State.finishUnit_output : (s.finishUnit p).output = s.output := rfl
@[simp] theorem State.finishUnit_rst : (s.finishUnit p).rst = s.rst := rfl
@[simp] theorem State.finishUnit_cal : (s.finishUnit p).cal = s.cal := rfl
@[simp] theorem State.finishUnit_stopAfterErrorFrame : (s.finishUnit p).stopAfterErrorFrame = s.stopAfterErrorFrame := rfl
@[simp] theorem State.finishUnit_draws : (s.finishUnit p).draws = s.draws := rfl

end finishUnitLaws

section elementDoneLaws

variable (s : State)

@[simp] theorem State.elementDone_buf : (s.elementDone).buf = s.buf := rfl
@[simp] theorem State.elementDone_cnt : (s.elementDone).cnt = 0#5 := rfl
@[simp] theorem State.elementDone_phase : (s.elementDone).phase = if s.rem - 1#32 = 0#32 then .awaitingFlag else .dataOffsetNormal := rfl
@[simp] theorem State.elementDone_sweep : (s.elementDone).sweep = s.sweep := rfl
@[simp] theorem State.elementDone_rem : (s.elementDone).rem = s.rem - 1#32 := rfl
@[simp] theorem State.elementDone_first : (s.elementDone).first = s.first := rfl
@[simp] theorem State.elementDone_errFrame : (s.elementDone).errFrame = s.errFrame := rfl
@[simp] theorem State.elementDone_fault : (s.elementDone).fault = s.fault := rfl
@[simp] theorem State.elementDone_faultInfo : (s.elementDone).faultInfo = s.faultInfo := rfl
@[simp] theorem State.elementDone_input : (s.elementDone).input = s.input := rfl
@[simp] theorem State.elementDone_output : (s.elementDone).output = s.output := rfl
@[simp] theorem State.elementDone_rst : (s.elementDone).rst = s.rst := rfl
@[simp] theorem State.elementDone_cal : (s.elementDone).cal = s.cal := rfl
@[simp] theorem State.elementDone_stopAfterErrorFrame : (s.elementDone).stopAfterErrorFrame = s.stopAfterErrorFrame := rfl
@[simp] theorem State.elementDone_draws : (s.elementDone).draws = s.draws := rfl

end elementDoneLaws

section latchFrameLaws

variable (s : State) (sw : SweepType) (n : U32) (fi er : Bool)

@[simp] theorem State.latchFrame_buf : (s.latchFrame sw n fi er).buf = s.buf := rfl
@[simp] theorem State.latchFrame_cnt : (s.latchFrame sw n fi er).cnt = s.cnt := rfl
@[simp] theorem State.latchFrame_phase : (s.latchFrame sw n fi er).phase = s.phase := rfl
@[simp] theorem State.latchFrame_sweep : (s.latchFrame sw n fi er).sweep = sw := rfl
@[simp] theorem State.latchFrame_rem : (s.latchFrame sw n fi er).rem = n := rfl
@[simp] theorem State.latchFrame_first : (s.latchFrame sw n fi er).first = fi := rfl
@[simp] theorem State.latchFrame_errFrame : (s.latchFrame sw n fi er).errFrame = er := rfl
@[simp] theorem State.latchFrame_fault : (s.latchFrame sw n fi er).fault = s.fault := rfl
@[simp] theorem State.latchFrame_faultInfo : (s.latchFrame sw n fi er).faultInfo = s.faultInfo := rfl
@[simp] theorem State.latchFrame_input : (s.latchFrame sw n fi er).input = s.input := rfl
@[simp] theorem State.latchFrame_output : (s.latchFrame sw n fi er).output = s.output := rfl
@[simp] theorem State.latchFrame_rst : (s.latchFrame sw n fi er).rst = s.rst := rfl
@[simp] theorem State.latchFrame_cal : (s.latchFrame sw n fi er).cal = s.cal := rfl
@[simp] theorem State.latchFrame_stopAfterErrorFrame : (s.latchFrame sw n fi er).stopAfterErrorFrame = s.stopAfterErrorFrame := rfl
@[simp] theorem State.latchFrame_draws : (s.latchFrame sw n fi er).draws = s.draws := rfl

end latchFrameLaws

section clearFirstLaws

variable (s : State)

@[simp] theorem State.clearFirst_buf : (s.clearFirst).buf = s.buf := rfl
@[simp] theorem State.clearFirst_cnt : (s.clearFirst).cnt = s.cnt := rfl
@[simp] theorem State.clearFirst_phase : (s.clearFirst).phase = s.phase := rfl
@[simp] theorem State.clearFirst_sweep : (s.clearFirst).sweep = s.sweep := rfl
@[simp] theorem State.clearFirst_rem : (s.clearFirst).rem = s.rem := rfl
@[simp] theorem State.clearFirst_first : (s.clearFirst).first = false := rfl
@[simp] theorem State.clearFirst_errFrame : (s.clearFirst).errFrame = s.errFrame := rfl
@[simp] theorem State.clearFirst_fault : (s.clearFirst).fault = s.fault := rfl
@[simp] theorem State.clearFirst_faultInfo : (s.clearFirst).faultInfo = s.faultInfo := rfl
@[simp] theorem State.clearFirst_input : (s.clearFirst).input = s.input := rfl
@[simp] theorem State.clearFirst_output : (s.clearFirst).output = s.output := rfl
@[simp] theorem State.clearFirst_rst : (s.clearFirst).rst = s.rst := rfl
@[simp] theorem State.clearFirst_cal : (s.clearFirst).cal = s.cal := rfl
@[simp] theorem State.clearFirst_stopAfterErrorFrame : (s.clearFirst).stopAfterErrorFrame = s.stopAfterErrorFrame := rfl
@[simp] theorem State.clearFirst_draws : (s.clearFirst).draws = s.draws := rfl

end clearFirstLaws

section countDrawLaws

variable (s : State)

@[simp] theorem State.countDraw_buf : (s.countDraw).buf = s.buf := rfl
@[simp] theorem State.countDraw_cnt : (s.countDraw).cnt = s.cnt := rfl
@[simp] theorem State.countDraw_phase : (s.countDraw).phase = s.phase := rfl
@[simp] theorem State.countDraw_sweep : (s.countDraw).sweep = s.sweep := rfl
@[simp] theorem State.countDraw_rem : (s.countDraw).rem = s.rem := rfl
@[simp] theorem State.countDraw_first : (s.countDraw).first = s.first := rfl
@[simp] theorem State.countDraw_errFrame : (s.countDraw).errFrame = s.errFrame := rfl
@[simp] theorem State.countDraw_fault : (s.countDraw).fault = s.fault := rfl
@[simp] theorem State.countDraw_faultInfo : (s.countDraw).faultInfo = s.faultInfo := rfl
@[simp] theorem State.countDraw_input : (s.countDraw).input = s.input := rfl
@[simp] theorem State.countDraw_output : (s.countDraw).output = s.output := rfl
@[simp] theorem State.countDraw_rst : (s.countDraw).rst = s.rst := rfl
@[simp] theorem State.countDraw_cal : (s.countDraw).cal = s.cal := rfl
@[simp] theorem State.countDraw_stopAfterErrorFrame : (s.countDraw).stopAfterErrorFrame = s.stopAfterErrorFrame := rfl
@[simp] theorem State.countDraw_draws : (s.countDraw).draws = s.draws + 1 := rfl

end countDrawLaws

section raiseFaultLaws

variable (s : State) (code : FaultCode) (info : BitVec 3)

@[simp] theorem State.raiseFault_buf : (s.raiseFault code info).buf = s.buf := rfl
@[simp] theorem State.raiseFault_cnt : (s.raiseFault code info).cnt = 0#5 := rfl
@[simp] theorem State.raiseFault_phase : (s.raiseFault code info).phase = .terminated := rfl
@[simp] theorem State.raiseFault_sweep : (s.raiseFault code info).sweep = s.sweep := rfl
@[simp] theorem State.raiseFault_rem : (s.raiseFault code info).rem = s.rem := rfl
@[simp] theorem State.raiseFault_first : (s.raiseFault code info).first = s.first := rfl
@[simp] theorem State.raiseFault_errFrame : (s.raiseFault code info).errFrame = s.errFrame := rfl
@[simp] theorem State.raiseFault_fault : (s.raiseFault code info).fault = code := rfl
@[simp] theorem State.raiseFault_faultInfo : (s.raiseFault code info).faultInfo = info := rfl
@[simp] theorem State.raiseFault_input : (s.raiseFault code info).input = s.input := rfl
@[simp] theorem State.raiseFault_output : (s.raiseFault code info).output = s.output := rfl
@[simp] theorem State.raiseFault_rst : (s.raiseFault code info).rst = s.rst := rfl
@[simp] theorem State.raiseFault_cal : (s.raiseFault code info).cal = s.cal := rfl
@[simp] theorem State.raiseFault_stopAfterErrorFrame : (s.raiseFault code info).stopAfterErrorFrame = s.stopAfterErrorFrame := rfl
@[simp] theorem State.raiseFault_draws : (s.raiseFault code info).draws = s.draws := rfl

end raiseFaultLaws

section terminateLaws

variable (s : State)

@[simp] theorem State.terminate_buf : (s.terminate).buf = s.buf := rfl
@[simp] theorem State.terminate_cnt : (s.terminate).cnt = s.cnt := rfl
@[simp] theorem State.terminate_phase : (s.terminate).phase = .terminated := rfl
@[simp] theorem State.terminate_sweep : (s.terminate).sweep = s.sweep := rfl
@[simp] theorem State.terminate_rem : (s.terminate).rem = s.rem := rfl
@[simp] theorem State.terminate_first : (s.terminate).first = s.first := rfl
@[simp] theorem State.terminate_errFrame : (s.terminate).errFrame = s.errFrame := rfl
@[simp] theorem State.terminate_fault : (s.terminate).fault = s.fault := rfl
@[simp] theorem State.terminate_faultInfo : (s.terminate).faultInfo = s.faultInfo := rfl
@[simp] theorem State.terminate_input : (s.terminate).input = s.input := rfl
@[simp] theorem State.terminate_output : (s.terminate).output = s.output := rfl
@[simp] theorem State.terminate_rst : (s.terminate).rst = s.rst := rfl
@[simp] theorem State.terminate_cal : (s.terminate).cal = s.cal := rfl
@[simp] theorem State.terminate_stopAfterErrorFrame : (s.terminate).stopAfterErrorFrame = s.stopAfterErrorFrame := rfl
@[simp] theorem State.terminate_draws : (s.terminate).draws = s.draws := rfl

end terminateLaws

section resetBlockLaws

variable (s : State)

@[simp] theorem State.resetBlock_buf : (s.resetBlock).buf = State.reset.buf := rfl
@[simp] theorem State.resetBlock_cnt : (s.resetBlock).cnt = 0#5 := rfl
@[simp] theorem State.resetBlock_phase : (s.resetBlock).phase = .awaitingHeader := rfl
@[simp] theorem State.resetBlock_sweep : (s.resetBlock).sweep = .peak := rfl
@[simp] theorem State.resetBlock_rem : (s.resetBlock).rem = 0#32 := rfl
@[simp] theorem State.resetBlock_first : (s.resetBlock).first = false := rfl
@[simp] theorem State.resetBlock_errFrame : (s.resetBlock).errFrame = false := rfl
@[simp] theorem State.resetBlock_fault : (s.resetBlock).fault = .noFault := rfl
@[simp] theorem State.resetBlock_faultInfo : (s.resetBlock).faultInfo = 0#3 := rfl
@[simp] theorem State.resetBlock_input : (s.resetBlock).input = s.input := rfl
@[simp] theorem State.resetBlock_output : (s.resetBlock).output = [] := rfl
@[simp] theorem State.resetBlock_rst : (s.resetBlock).rst = s.rst := rfl
@[simp] theorem State.resetBlock_cal : (s.resetBlock).cal = s.cal := rfl
@[simp] theorem State.resetBlock_stopAfterErrorFrame : (s.resetBlock).stopAfterErrorFrame = s.stopAfterErrorFrame := rfl
@[simp] theorem State.resetBlock_draws : (s.resetBlock).draws = s.draws := rfl

end resetBlockLaws

end Sys2Proof.Machine
end

