-- ==== Sys2Proof/Laws/Exec.lean ====
section
/-!
SUPPORT. Laws/Exec.lean: each shared operation of the meanings said once, and what any unit operation does to the fields
it has no business with.
-/

namespace Sys2Proof.Machine

/-- What every unit operation leaves alone, and the most it does to the output (R20, R46). -/
structure UnitFrame (s t : State) : Prop where
  buf : t.buf = s.buf
  cnt : t.cnt = 0#5
  input : t.input = s.input
  rst : t.rst = s.rst
  cal : t.cal = s.cal
  stop : t.stopAfterErrorFrame = s.stopAfterErrorFrame
  output : t.output = s.output ∨ ∃ r, t.output = s.output ++ [r]

theorem illegalHeader_spec (st : BitVec 3) (s : State) :
    ∃ t, illegalHeader st s = .next t ∧ UnitFrame s t ∧ t = s.raiseFault .unknownSweepType st :=
  ⟨_, rfl, ⟨rfl, rfl, rfl, rfl, rfl, rfl, .inl rfl⟩, rfl⟩

theorem normalHeader_spec (st : SweepType) (cnt : U12) (trig : BitVec 1) (len : U32) (ts : U64) (s : State) :
    ∃ t, normalHeader st cnt trig len ts s = .next t ∧ UnitFrame s t ∧
      t.sweep = st ∧ t.rem = elementCount st len ∧ t.first = firstOf st ∧ t.errFrame = false ∧
      t.phase = phaseAfterHeader (elementCount st len) ∧ t.fault = s.fault ∧ t.faultInfo = s.faultInfo ∧
      t.draws = s.draws ∧ t.output = s.output ++ [.headerInfo ⟨cnt, st, trig, 16#16, len, ts⟩] :=
  ⟨_, rfl, ⟨rfl, rfl, rfl, rfl, rfl, rfl, .inr ⟨_, rfl⟩⟩, rfl, rfl, rfl, rfl, rfl, rfl, rfl, rfl, rfl⟩

theorem errorHeader_spec (st : SweepType) (cnt : U12) (trig : BitVec 1) (off : U16) (len : U32) (ts : U64) (s : State) :
    ∃ t, errorHeader st cnt trig off len ts s = .next t ∧ UnitFrame s t ∧
      t.sweep = st ∧ t.rem = 0#32 ∧ t.first = false ∧ t.errFrame = true ∧ t.phase = .dataOffsetError ∧
      t.fault = s.fault ∧ t.faultInfo = s.faultInfo ∧ t.draws = s.draws ∧
      t.output = s.output ++ [.headerInfo ⟨cnt, st, trig, off, len, ts⟩] :=
  ⟨_, rfl, ⟨rfl, rfl, rfl, rfl, rfl, rfl, .inr ⟨_, rfl⟩⟩, rfl, rfl, rfl, rfl, rfl, rfl, rfl, rfl, rfl⟩

theorem errorPayload_spec (e d : U32) (s : State) :
    ∃ t, errorPayload e d s = .next t ∧ UnitFrame s t ∧
      t.phase = .awaitingFlag ∧ t.sweep = s.sweep ∧ t.rem = s.rem ∧ t.first = s.first ∧ t.errFrame = s.errFrame ∧
      t.fault = s.fault ∧ t.faultInfo = s.faultInfo ∧ t.draws = s.draws ∧
      t.output = s.output ++ [.error ⟨e, d, classifyError e, sensorId d, fiberId d, channelId d⟩] :=
  ⟨_, rfl, ⟨rfl, rfl, rfl, rfl, rfl, rfl, .inr ⟨_, rfl⟩⟩, rfl, rfl, rfl, rfl, rfl, rfl, rfl, rfl, rfl⟩

/-- Every unit operation answers a next state, and keeps to the frame (R202, R46). -/
theorem exec_next_unitFrame (i : Instr) (s : State) : ∃ t, exec i s = .next t ∧ UnitFrame s t := by
  cases i <;>
    exact ⟨_, rfl, ⟨rfl, rfl, rfl, rfl, rfl, rfl, by first | exact .inl rfl | exact .inr ⟨_, rfl⟩⟩⟩

end Sys2Proof.Machine
end

