-- ==== Sys2Proof/Laws/Ops.lean ====
section
/-!
SUPPORT. Laws/Ops.lean: the calibration table's operations keep the canonical form, and a canonical table is determined by
what it reads as.
-/

namespace Sys2Proof.Machine

theorem CalTable.wfFrom_cons {lo i : Nat} {e : CalEntry} {t : CalTable} :
    CalTable.wfFrom lo ((i, e) :: t) = true ↔
      lo ≤ i ∧ i < 65536 ∧ e ≠ absentEntry ∧ CalTable.wfFrom (i + 1) t = true := by
  simp [CalTable.wfFrom, and_assoc]

/-- A lower bound may be lowered. -/
theorem CalTable.wfFrom_mono {lo lo' : Nat} (h : lo' ≤ lo) :
    ∀ {t : CalTable}, CalTable.wfFrom lo t = true → CalTable.wfFrom lo' t = true
  | [], _ => rfl
  | (i, e) :: t, w => by
    rw [CalTable.wfFrom_cons] at w ⊢
    exact ⟨by omega, w.2⟩

/-- An index below every listed one reads as absent. -/
theorem CalTable.read_below {lo i : Nat} (h : i < lo) :
    ∀ {t : CalTable}, CalTable.wfFrom lo t = true → CalTable.read t i = absentEntry
  | [], _ => rfl
  | (j, e) :: t, w => by
    rw [CalTable.wfFrom_cons] at w
    have hne : i ≠ j := by omega
    simp only [CalTable.read, if_neg hne]
    exact CalTable.read_below (show i < j + 1 by omega) w.2.2.2

/-- A store keeps the canonical form. -/
theorem CalTable.wfFrom_write {i : Nat} {e : CalEntry} (hi : i < 65536) :
    ∀ {lo : Nat} {t : CalTable}, lo ≤ i → CalTable.wfFrom lo t = true →
      CalTable.wfFrom lo (CalTable.write t i e) = true
  | lo, [], h, _ => by
    by_cases he : e = absentEntry
    · simp [CalTable.write, CalTable.wfFrom, he]
    · simp [CalTable.write, CalTable.wfFrom, he, h, hi]
  | lo, (j, x) :: t, h, w => by
    have w' := CalTable.wfFrom_cons.mp w
    obtain ⟨hj, hj', hx, ht⟩ := w'
    rcases Nat.lt_trichotomy i j with hij | rfl | hij
    · by_cases he : e = absentEntry
      · simpa [CalTable.write, hij, he] using w
      · simp only [CalTable.write, if_pos hij, if_neg he, CalTable.wfFrom_cons]
        exact ⟨h, hi, he, by omega, hj', hx, ht⟩
    · by_cases he : e = absentEntry
      · simpa [CalTable.write, he] using CalTable.wfFrom_mono (by omega) ht
      · simp only [CalTable.write, Nat.lt_irrefl, if_false, if_true, if_neg he, CalTable.wfFrom_cons]
        exact ⟨h, hi, he, ht⟩
    · have h1 : ¬i < j := by omega
      have h2 : i ≠ j := by omega
      simp only [CalTable.write, if_neg h1, if_neg h2, CalTable.wfFrom_cons]
      exact ⟨hj, hj', hx, CalTable.wfFrom_write hi (by omega) ht⟩

theorem CalTable.wf_write {t : CalTable} {i : Nat} {e : CalEntry} (hi : i < 65536) (w : CalTable.wf t = true) :
    CalTable.wf (CalTable.write t i e) = true :=
  CalTable.wfFrom_write hi (Nat.zero_le i) w

/-- Two canonical tables that read alike at every index are the same list. -/
theorem CalTable.ext_of_read :
    ∀ {lo : Nat} {t u : CalTable}, CalTable.wfFrom lo t = true → CalTable.wfFrom lo u = true →
      (∀ i, CalTable.read t i = CalTable.read u i) → t = u
  | _, [], [], _, _, _ => rfl
  | _, [], (j, x) :: u, _, wu, h => by
    have hx := (CalTable.wfFrom_cons.mp wu).2.2.1
    have := h j
    simp only [CalTable.read, if_true] at this
    exact absurd this.symm hx
  | _, (i, e) :: t, [], wt, _, h => by
    have he := (CalTable.wfFrom_cons.mp wt).2.2.1
    have := h i
    simp only [CalTable.read, if_true] at this
    exact absurd this he
  | lo, (i, e) :: t, (j, x) :: u, wt, wu, h => by
    obtain ⟨hi, _, he, ht⟩ := CalTable.wfFrom_cons.mp wt
    obtain ⟨hj, _, hx, hu⟩ := CalTable.wfFrom_cons.mp wu
    have hij : i = j := by
      rcases Nat.lt_trichotomy i j with hlt | rfl | hlt
      · have := h i
        rw [CalTable.read_below hlt (t := (j, x) :: u) (CalTable.wfFrom_cons.mpr ⟨Nat.le_refl j, by omega, hx, hu⟩)] at this
        simp only [CalTable.read, if_true] at this
        exact absurd this he
      · rfl
      · have := h j
        rw [CalTable.read_below hlt (t := (i, e) :: t) (CalTable.wfFrom_cons.mpr ⟨Nat.le_refl i, by omega, he, ht⟩)] at this
        simp only [CalTable.read, if_true] at this
        exact absurd this.symm hx
    subst hij
    have hex : e = x := by
      have := h i
      simpa only [CalTable.read, if_true] using this
    subst hex
    have htu : t = u := CalTable.ext_of_read ht hu fun k => by
      by_cases hk : k = i
      · subst hk
        rw [CalTable.read_below (Nat.lt_succ_self k) ht, CalTable.read_below (Nat.lt_succ_self k) hu]
      · have := h k
        simpa only [CalTable.read, if_neg hk] using this
    rw [htu]

/-- The index of a key is one of the table's 65 536. -/
theorem calIndex_lt (c f : U4) (s : Byte) : (calIndex c f s).toNat < 65536 := (calIndex c f s).isLt

/-- A read after a store: the entry stored at its index, the old one at every other. -/
theorem CalTable.read_write {i : Nat} {e : CalEntry} (k : Nat) :
    ∀ {lo : Nat} {t : CalTable}, CalTable.wfFrom lo t = true →
      CalTable.read (CalTable.write t i e) k = if k = i then e else CalTable.read t k
  | lo, [], _ => by
    by_cases he : e = absentEntry
    · subst he
      simp [CalTable.write, CalTable.read]
    · simp [CalTable.write, CalTable.read, he]
  | lo, (j, x) :: t, w => by
    obtain ⟨hj, _, hx, ht⟩ := CalTable.wfFrom_cons.mp w
    rcases Nat.lt_trichotomy i j with hij | rfl | hij
    · by_cases he : e = absentEntry
      · simp only [CalTable.write, if_pos hij, if_pos he]
        split
        · next hk =>
          subst hk
          rw [he]
          exact CalTable.read_below (t := (j, x) :: t) hij
            (CalTable.wfFrom_cons.mpr ⟨Nat.le_refl j, by omega, hx, ht⟩)
        · rfl
      · simp only [CalTable.write, if_pos hij, if_neg he, CalTable.read]
    · by_cases he : e = absentEntry
      · simp only [CalTable.write, Nat.lt_irrefl, if_false, if_true, if_pos he, CalTable.read]
        split
        · next hk =>
          subst hk
          rw [he]
          exact CalTable.read_below (Nat.lt_succ_self _) ht
        · rfl
      · simp only [CalTable.write, Nat.lt_irrefl, if_false, if_true, if_neg he, CalTable.read]
        split <;> rfl
    · have h1 : ¬i < j := by omega
      have h2 : i ≠ j := by omega
      simp only [CalTable.write, if_neg h1, if_neg h2, CalTable.read, CalTable.read_write k ht]
      by_cases hk : k = j
      · subst hk
        simp only [if_true, if_neg h2.symm]
      · simp only [if_neg hk]
/-- Different keys have different indexes. -/
theorem calIndex_inj {c f c' f' : U4} {k k' : Byte} (h : calIndex c f k = calIndex c' f' k') :
    (c, f, k) = (c', f', k') := by
  have hc (c f : U4) (k : Byte) : (calIndex c f k).extractLsb' 12 4 = c := by
    unfold calIndex
    rw [BitVec.extractLsb'_append_eq_of_le (by decide), BitVec.extractLsb'_append_eq_of_le (by decide)]
    exact BitVec.extractLsb'_eq_self
  have hf (c f : U4) (k : Byte) : (calIndex c f k).extractLsb' 8 4 = f := by
    unfold calIndex
    rw [BitVec.extractLsb'_append_eq_of_le (by decide), BitVec.extractLsb'_append_eq_of_add_le (by decide)]
    exact BitVec.extractLsb'_eq_self
  have hk (c f : U4) (k : Byte) : (calIndex c f k).extractLsb' 0 8 = k := by
    unfold calIndex
    rw [BitVec.extractLsb'_append_eq_of_add_le (by decide)]
    exact BitVec.extractLsb'_eq_self
  have h1 := hc c f k
  have h2 := hf c f k
  have h3 := hk c f k
  rw [h] at h1 h2 h3
  rw [← h1, ← h2, ← h3, hc, hf, hk]

end Sys2Proof.Machine
end

