-- ==== Sys2Proof/Laws/PerInstr.lean ====
section
/-!
SUPPORT. Laws/PerInstr.lean: statements for all instructions, one lemma per constructor. Family UnitLength: the encoder
writes exactly the length R60 gives the row's unit.
-/

namespace Sys2Proof.Laws.UnitLength

/-- The encoding of the instruction has the length of its unit (R60, R61), which is 8, 12 or 16 bytes. -/
def Statement (i : Instr) : Prop :=
  (encode i).length = i.context.size ∧ (i.context.size = 8 ∨ i.context.size = 12 ∨ i.context.size = 16)

theorem hdrIll3 (packetCounter : U12) (triggerMode : BitVec 1) (dataOffset : U16) (dataLength : U32) (timeStamp : U64) :
    Statement (.hdrIll3 packetCounter triggerMode dataOffset dataLength timeStamp) :=
  ⟨encode_length _, .inr (.inr rfl)⟩

theorem hdrIll47 (packetCounter : U12) (sweepType : BitVec 3) (triggerMode : BitVec 1) (dataOffset : U16) (dataLength : U32) (timeStamp : U64) :
    Statement (.hdrIll47 packetCounter sweepType triggerMode dataOffset dataLength timeStamp) :=
  ⟨encode_length _, .inr (.inr rfl)⟩

theorem hdrPeak (packetCounter : U12) (triggerMode : BitVec 1) (dataLength : U32) (timeStamp : U64) :
    Statement (.hdrPeak packetCounter triggerMode dataLength timeStamp) :=
  ⟨encode_length _, .inr (.inr rfl)⟩

theorem hdrSpec (packetCounter : U12) (triggerMode : BitVec 1) (dataLength : U32) (timeStamp : U64) :
    Statement (.hdrSpec packetCounter triggerMode dataLength timeStamp) :=
  ⟨encode_length _, .inr (.inr rfl)⟩

theorem hdrTspk (packetCounter : U12) (triggerMode : BitVec 1) (dataLength : U32) (timeStamp : U64) :
    Statement (.hdrTspk packetCounter triggerMode dataLength timeStamp) :=
  ⟨encode_length _, .inr (.inr rfl)⟩

theorem hdrPeakE (packetCounter : U12) (triggerMode : BitVec 1) (dataOffset : U16) (dataLength : U32) (timeStamp : U64) :
    Statement (.hdrPeakE packetCounter triggerMode dataOffset dataLength timeStamp) :=
  ⟨encode_length _, .inr (.inr rfl)⟩

theorem hdrSpecE (packetCounter : U12) (triggerMode : BitVec 1) (dataOffset : U16) (dataLength : U32) (timeStamp : U64) :
    Statement (.hdrSpecE packetCounter triggerMode dataOffset dataLength timeStamp) :=
  ⟨encode_length _, .inr (.inr rfl)⟩

theorem hdrTspkE (packetCounter : U12) (triggerMode : BitVec 1) (dataOffset : U16) (dataLength : U32) (timeStamp : U64) :
    Statement (.hdrTspkE packetCounter triggerMode dataOffset dataLength timeStamp) :=
  ⟨encode_length _, .inr (.inr rfl)⟩

theorem peak (word0 word1 : U32) :
    Statement (.peak word0 word1) :=
  ⟨encode_length _, .inl rfl⟩

theorem tspk (word0 word1 word2 : U32) :
    Statement (.tspk word0 word1 word2) :=
  ⟨encode_length _, .inr (.inl rfl)⟩

theorem sinfo (word0 pointCount : U32) :
    Statement (.sinfo word0 pointCount) :=
  ⟨encode_length _, .inl rfl⟩

theorem ssamp (amp1 amp2 amp3 amp4 : U16) :
    Statement (.ssamp amp1 amp2 amp3 amp4) :=
  ⟨encode_length _, .inl rfl⟩

theorem errMissing (description : U32) :
    Statement (.errMissing description) :=
  ⟨encode_length _, .inl rfl⟩

theorem errMulti (description : U32) :
    Statement (.errMulti description) :=
  ⟨encode_length _, .inl rfl⟩

theorem errInternal (errorId description : U32) :
    Statement (.errInternal errorId description) :=
  ⟨encode_length _, .inl rfl⟩

theorem flag (sweepCounter reserved : U32) :
    Statement (.flag sweepCounter reserved) :=
  ⟨encode_length _, .inl rfl⟩

end Sys2Proof.Laws.UnitLength
end

