-- ==== Sys2Proof/Laws/Ports.lean ====
section
/-!
SUPPORT. Laws/Ports.lean: the moves of the outside: sequencing, the reset level, and what loading entries leaves alone.
-/

namespace Sys2Proof.Machine

@[simp] theorem andThen_next (s : State) (f : State → Result) : andThen (.next s) f = f s := rfl

@[simp] theorem andThen_fault (a : Fault) (f : State → Result) : andThen (.fault a) f = .fault a := rfl

@[simp] theorem andThen_refused (a : Refusal) (f : State → Result) : andThen (.refused a) f = .refused a := rfl

/-- Holding the reset state twice is holding it once. -/
@[simp] theorem State.resetBlock_resetBlock (s : State) : s.resetBlock.resetBlock = s.resetBlock := rfl

theorem State.driveRst_true (s : State) : s.driveRst true = { s.resetBlock with rst := true } := rfl

theorem State.driveRst_of_held {s : State} (h : s.rst = true) (level : Bool) :
    s.driveRst level = { s.resetBlock with rst := level } := by
  rw [State.driveRst, h, Bool.or_true]
  rfl

theorem State.driveRst_false_of_running {s : State} (h : s.rst = false) : s.driveRst false = s := by
  simp [State.driveRst, h]

/-- Loading entries in reset changes the table alone, and keeps its canonical form. -/
theorem loadAll_next :
    ∀ (entries : List (U4 × U4 × Byte × CalEntry)) {s : State}, s.rst = true →
      ∃ t, loadAll entries s = .next t ∧ t = { s with cal := t.cal } ∧
        (CalTable.wf s.cal = true → CalTable.wf t.cal = true)
  | [], s, _ => ⟨s, rfl, rfl, id⟩
  | (c, f, k, entry) :: entries, s, h => by
    obtain ⟨t, ht, hf, hw⟩ :=
      loadAll_next entries (s := { s with cal := CalTable.write s.cal (calIndex c f k).toNat entry }) h
    have hl : loadAll ((c, f, k, entry) :: entries) s = .next t := by
      rw [loadAll, loadCal, if_pos h]
      exact ht
    exact ⟨t, hl, hf, fun w => hw (CalTable.wf_write (calIndex_lt c f k) w)⟩

end Sys2Proof.Machine
end

