-- ==== Sys2Proof/Laws/Step.lean ====
section
/-!
SUPPORT. Laws/Step.lean: everything a step can do, said once; the provers cite `step_cases` and do not unfold `blockStep`.
-/

namespace Sys2Proof.Machine

theorem State.unitBytes_length (s : State) {n : Nat} (h0 : 0 < n) (h : n ≤ 16) (b : Byte) :
    (s.unitBytes n b).length = n := by
  simp [State.unitBytes]
  omega

/-- A completed unit always decodes, so its operation runs. -/
theorem runUnit_unitBytes (c : Context) (s t : State) (b : Byte) :
    runUnit c (s.unitBytes c.size b) t = exec (decodeUnit c (unitValue (s.unitBytes c.size b))) t := by
  unfold runUnit
  rw [decode_of_length (State.unitBytes_length s c.size_pos c.size_le b)]

theorem byteStep_lt {c : Context} {s : State} (b : Byte) (h : s.cnt.toNat + 1 < c.size) :
    byteStep c b s = .next (s.storeByte b) := if_pos h

theorem byteStep_eq {c : Context} {s : State} (b : Byte) (h : s.cnt.toNat + 1 = c.size) :
    byteStep c b s = exec (decodeUnit c (unitValue (s.unitBytes c.size b))) s := by
  unfold byteStep
  rw [if_neg (by omega), if_pos h, runUnit_unitBytes]

theorem byteStep_gt {c : Context} {s : State} (b : Byte) (h : c.size < s.cnt.toNat + 1) :
    byteStep c b s = .refused .unreachableCount := by
  unfold byteStep
  rw [if_neg (by omega), if_neg (by omega)]

theorem endStep_boundary {s : State} (h : s.phase = .awaitingHeader ∧ s.cnt = 0#5) :
    endStep s = .next s.terminate := if_pos h

theorem endStep_inside {s : State} (h : ¬(s.phase = .awaitingHeader ∧ s.cnt = 0#5)) :
    endStep s = .next (s.raiseFault .ioShortRead 0#3) := if_neg h

/-- A step that is not held in reset and has a unit to read does to its token what `tokenStep` says. -/
theorem step_token {s : State} {c : Context} {tok : Token} {rest : List Token} (hr : s.rst = false)
    (hc : s.context = some c) (hi : s.input = tok :: rest) : step s = tokenStep c tok (s.takeToken rest) := by
  simp [step, blockStep, hr, hc, hi]

theorem step_reset {s : State} (hr : s.rst = true) : step s = .next s.resetBlock := by
  simp [step, blockStep, hr]

theorem step_terminated {s : State} (hr : s.rst = false) (hc : s.context = none) : step s = .fault .terminated := by
  simp [step, blockStep, hr, hc]

theorem step_noToken {s : State} {c : Context} (hr : s.rst = false) (hc : s.context = some c) (hi : s.input = []) :
    step s = .fault .noToken := by
  simp [step, blockStep, hr, hc, hi]

/-- The equation of a step that completes a unit. -/
theorem step_completes {s : State} {c : Context} {b : Byte} {rest : List Token} (hr : s.rst = false)
    (hc : s.context = some c) (hi : s.input = .byte b :: rest) (hn : s.cnt.toNat + 1 = c.size) :
    step s = exec (decodeUnit c (unitValue (s.unitBytes c.size b))) (s.takeToken rest) :=
  (step_token hr hc hi).trans (byteStep_eq (s := s.takeToken rest) b hn)

/-- The equation of a step that buffers a byte. -/
theorem step_buffers {s : State} {c : Context} {b : Byte} {rest : List Token} (hr : s.rst = false)
    (hc : s.context = some c) (hi : s.input = .byte b :: rest) (hn : s.cnt.toNat + 1 < c.size) :
    step s = .next ((s.takeToken rest).storeByte b) :=
  (step_token hr hc hi).trans (byteStep_lt (s := s.takeToken rest) b hn)

/-- Only Terminated selects no unit. -/
theorem State.context_eq_none {s : State} : s.context = none ↔ s.phase = .terminated := by
  unfold State.context
  cases s.phase <;> cases s.sweep <;> simp

/-- What a step does, when it answers a next state: it holds the reset state, or it takes one token and buffers a byte,
runs a unit operation, ends the run, or enters a fault. -/
theorem step_cases {s t : State} (h : step s = .next t) :
    (s.rst = true ∧ t = s.resetBlock) ∨
    (s.rst = false ∧ ∃ c tok, s.context = some c ∧ s.input = tok :: t.input ∧
      ((∃ b, tok = .byte b ∧ s.cnt.toNat + 1 < c.size ∧ t = (s.takeToken t.input).storeByte b) ∨
       (∃ b, tok = .byte b ∧ s.cnt.toNat + 1 = c.size ∧
          exec (decodeUnit c (unitValue (s.unitBytes c.size b))) (s.takeToken t.input) = .next t) ∨
       (tok = .endOfStream ∧ s.phase = .awaitingHeader ∧ s.cnt = 0#5 ∧ t = (s.takeToken t.input).terminate) ∨
       (tok = .endOfStream ∧ ¬(s.phase = .awaitingHeader ∧ s.cnt = 0#5) ∧
          t = (s.takeToken t.input).raiseFault .ioShortRead 0#3) ∨
       (tok = .ioError ∧ t = (s.takeToken t.input).raiseFault .ioFailure 0#3))) := by
  cases hr : s.rst with
  | true =>
    rw [step_reset hr] at h
    cases h
    exact .inl ⟨rfl, rfl⟩
  | false =>
    refine .inr ⟨rfl, ?_⟩
    cases hc : s.context with
    | none => rw [step_terminated hr hc] at h; cases h
    | some c =>
      cases hi : s.input with
      | nil => rw [step_noToken hr hc hi] at h; cases h
      | cons tok rest =>
        cases tok with
        | byte b =>
          rcases Nat.lt_trichotomy (s.cnt.toNat + 1) c.size with hn | hn | hn
          · rw [step_buffers hr hc hi hn] at h
            cases h
            exact ⟨c, _, rfl, rfl, .inl ⟨b, rfl, hn, rfl⟩⟩
          · rw [step_completes hr hc hi hn] at h
            obtain ⟨t', ht', hf⟩ := exec_next_unitFrame (decodeUnit c (unitValue (s.unitBytes c.size b))) (s.takeToken rest)
            obtain rfl : t = t' := by rw [h] at ht'; cases ht'; rfl
            obtain rfl : rest = t.input := hf.input.symm
            exact ⟨c, _, rfl, rfl, .inr (.inl ⟨b, rfl, hn, h⟩)⟩
          · rw [step_token hr hc hi] at h
            have := byteStep_gt (s := s.takeToken rest) b hn
            simp only [tokenStep, this] at h
            cases h
        | endOfStream =>
          rw [step_token hr hc hi] at h
          by_cases hb : s.phase = .awaitingHeader ∧ s.cnt = 0#5
          · have := endStep_boundary (s := s.takeToken rest) hb
            simp only [tokenStep, this] at h
            cases h
            exact ⟨c, _, rfl, rfl, .inr (.inr (.inl ⟨rfl, hb.1, hb.2, rfl⟩))⟩
          · have := endStep_inside (s := s.takeToken rest) hb
            simp only [tokenStep, this] at h
            cases h
            exact ⟨c, _, rfl, rfl, .inr (.inr (.inr (.inl ⟨rfl, hb, rfl⟩)))⟩
        | ioError =>
          rw [step_token hr hc hi] at h
          cases h
          exact ⟨c, _, rfl, rfl, .inr (.inr (.inr (.inr ⟨rfl, rfl⟩)))⟩

end Sys2Proof.Machine
end

