-- ==== Sys2Proof/Laws/Run.lean ====
section
/-!
SUPPORT. Laws/Run.lean: how several steps of the machine compose.
-/

namespace Sys2Proof.Machine

/-- No step is the state itself. -/
theorem run_zero (s : State) : Host.Core.run Sys2Proof.core 0 s = (.next s : Result) := rfl

/-- One step first, then the rest. -/
theorem run_succ_of_next {s t : State} (k : Nat) (h : step s = .next t) :
    Host.Core.run Sys2Proof.core (k + 1) s = Host.Core.run Sys2Proof.core k t := by
  have h' : Host.Core.step Sys2Proof.core s = .next t := h
  simp only [Host.Core.run, h']

/-- A run of k + m steps is a run of k and then one of m. -/
theorem run_add {t : State} (m : Nat) :
    ∀ {k : Nat} {s : State}, Host.Core.run Sys2Proof.core k s = (.next t : Result) →
      Host.Core.run Sys2Proof.core (k + m) s = Host.Core.run Sys2Proof.core m t
  | 0, s, h => by
    rw [run_zero] at h
    cases h
    rw [Nat.zero_add]
  | k + 1, s, h => by
    cases hs : step s with
    | next u =>
      rw [run_succ_of_next k hs] at h
      rw [Nat.add_right_comm, run_succ_of_next (k + m) hs]
      exact run_add m h
    | fault r =>
      have hs' : Host.Core.step Sys2Proof.core s = .fault r := hs
      simp only [Host.Core.run, hs'] at h
      cases h
    | refused r =>
      have hs' : Host.Core.step Sys2Proof.core s = .refused r := hs
      simp only [Host.Core.run, hs'] at h
      cases h

/-- The tokens of units are the tokens of the first followed by those of the rest. -/
theorem unitTokens_cons (i : Instr) (is : List Instr) :
    unitTokens (i :: is) = (encode i).map Token.byte ++ unitTokens is := by
  simp [unitTokens]

end Sys2Proof.Machine
end

