-- ==== Sys2Proof/Tests/Slice0.lean ====
section
/-!
SUPPORT. Tests/Slice0.lean: checks against spec/95_test_vectors.md (each names its vector), the ill-formed terms, one
written-out unit per constructor, the host's two placements, and a witness for every statement that has hypotheses.
-/

namespace Sys2Proof.Tests

open Sys2Proof Sys2Proof.Machine

/-! ## Helpers -/

/-- The next state, if there is one. -/
def nextOf : Result → Option State
  | .next t => some t
  | .fault _ => none
  | .refused _ => none

/-- The registers in the order 95_test_vectors.md writes them, without BUF. -/
structure Regs where
  phase : Phase
  cnt : Nat
  sweep : SweepType
  rem : Nat
  first : Bool
  errFrame : Bool
  fault : FaultCode
  faultInfo : Nat
  deriving DecidableEq, Repr

/-- The registers of a state. -/
def regs (t : State) : Regs :=
  ⟨t.phase, t.cnt.toNat, t.sweep, t.rem.toNat, t.first, t.errFrame, t.fault, t.faultInfo.toNat⟩

/-- The registers and the records after the step that completes a unit. -/
def unitStep (c : Context) (bytes : List Byte) (s : State) : Option (Regs × List Record) :=
  (nextOf (step (s.placeUnit c bytes))).map fun t => (regs t, t.output)

/-- Inside a normal frame, `rem` elements to come. -/
def inFrame (sweep : SweepType) (rem : U32) (first : Bool) : State :=
  { State.reset with phase := .dataOffsetNormal, sweep := sweep, rem := rem, first := first }

/-- In an error frame, its payload to come. -/
def inErrorFrame (sweep : SweepType) : State :=
  { State.reset with phase := .dataOffsetError, sweep := sweep, errFrame := true }

/-- The flag to come. -/
def atFlag (errFrame stop : Bool) : State :=
  { State.reset with phase := .awaitingFlag, errFrame := errFrame, stopAfterErrorFrame := stop }

/-- The table of V36a: one entry, at the key (1, 2, 0x34). -/
def calOne (reference : F64) : CalTable := CalTable.write [] (calIndex 1 2 0x34).toNat ⟨true, reference⟩

/-! ## Well-formedness: each check refuses its ill-formed term -/

theorem test_wf_ill47_needs_bit2 : Instr.wellFormed (.hdrIll47 0 3 0 16 0 0) = false := by decide
theorem test_wf_peakE_not_16 : Instr.wellFormed (.hdrPeakE 0 0 16 0 0) = false := by decide
theorem test_wf_specE_not_16 : Instr.wellFormed (.hdrSpecE 0 0 16 0 0) = false := by decide
theorem test_wf_tspkE_not_16 : Instr.wellFormed (.hdrTspkE 0 0 16 0 0) = false := by decide
theorem test_wf_internal_not_500 : Instr.wellFormed (.errInternal 500 0) = false := by decide
theorem test_wf_internal_not_501 : Instr.wellFormed (.errInternal 501 0) = false := by decide
theorem test_wf_accepts :
    Instr.wellFormed (.hdrIll47 0 4 0 16 0 0) = true ∧ Instr.wellFormed (.hdrPeakE 0 0 17 0 0) = true ∧
    Instr.wellFormed (.errInternal 502 0) = true := by decide

/-! ## Decoding: a unit written out from 30_encoding.md for each constructor -/

/-- V3a. -/
theorem test_decode_hdrIll3 :
    decode .header [0x00, 0x30, 0x10, 0x00, 0x08, 0x00, 0x00, 0x00, 0, 0, 0, 0, 0, 0, 0, 0] =
      .ok (.hdrIll3 0 0 16 8 0) := by decide

/-- V3c. -/
theorem test_decode_hdrIll47 :
    decode .header [0x00, 0x40, 0x34, 0x12, 0x00, 0x00, 0x00, 0x00, 0, 0, 0, 0, 0, 0, 0, 0] =
      .ok (.hdrIll47 0 4 0 0x1234 0 0) := by decide

/-- V1a. -/
theorem test_decode_hdrPeak :
    decode .header [0x01, 0x00, 0x10, 0x00, 0x08, 0x00, 0x00, 0x00, 0, 0, 0, 0, 0, 0, 0, 0] =
      .ok (.hdrPeak 1 0 8 0) := by decide

/-- V1c. -/
theorem test_decode_hdrSpec :
    decode .header [0x23, 0x91, 0x10, 0x00, 0x28, 0x00, 0x00, 0x00, 0xC3, 0xB2, 0xA1, 0xA0, 0xF4, 0xC0, 0x56, 0x36] =
      .ok (.hdrSpec 291 1 40 0x3656C0F4A0A1B2C3) := by decide

/-- V1b. -/
theorem test_decode_hdrTspk :
    decode .header [0xFF, 0xAF, 0x10, 0x00, 0x18, 0x00, 0x00, 0x00, 0xFF, 0xFF, 0xFF, 0xFF, 0xFF, 0xFF, 0xFF, 0xFF] =
      .ok (.hdrTspk 4095 1 24 0xFFFFFFFFFFFFFFFF) := by decide

/-- V2c. -/
theorem test_decode_hdrPeakE :
    decode .header [0x00, 0x00, 0xFF, 0xFF, 0xFF, 0xFF, 0xFF, 0xFF, 0, 0, 0, 0, 0, 0, 0, 0] =
      .ok (.hdrPeakE 0 0 65535 4294967295 0) := by decide

/-- V2b. -/
theorem test_decode_hdrSpecE :
    decode .header [0x05, 0x10, 0x11, 0x00, 0x00, 0x00, 0x00, 0x00, 0x07, 0, 0, 0, 0, 0, 0, 0] =
      .ok (.hdrSpecE 5 0 17 0 7) := by decide

/-- info = 0x2001: sweep type 2 in bits 14:12 (R64). -/
theorem test_decode_hdrTspkE :
    decode .header [0x01, 0x20, 0x00, 0x01, 0x02, 0x00, 0x00, 0x00, 0x03, 0, 0, 0, 0, 0, 0, 0] =
      .ok (.hdrTspkE 1 0 256 2 3) := by decide

/-- V41. -/
theorem test_decode_peak :
    decode .peak [0x34, 0x12, 0x66, 0xF9, 0xA0, 0x01, 0xBA, 0x3E] = .ok (.peak 0xF9661234 0x3EBA01A0) := by decide

/-- P3 step 40. -/
theorem test_decode_tspk :
    decode .tspk [0x34, 0x12, 0xE6, 0x05, 0x33, 0x01, 0xBA, 0x3E, 0x03, 0x00, 0x00, 0x00] =
      .ok (.tspk 0x05E61234 0x3EBA0133 3) := by decide

/-- V43. -/
theorem test_decode_sinfo :
    decode .sinfo [0x05, 0x21, 0xEF, 0xBE, 0x08, 0x00, 0x00, 0x00] = .ok (.sinfo 0xBEEF2105 8) := by decide

/-- V44. -/
theorem test_decode_ssamp :
    decode .ssamp [0x01, 0x00, 0xFF, 0xFF, 0x00, 0x80, 0xFF, 0x7F] = .ok (.ssamp 1 0xFFFF 0x8000 0x7FFF) := by decide

/-- V45a. -/
theorem test_decode_errMissing :
    decode .errorPayload [0xF4, 0x01, 0x00, 0x00, 0x34, 0x12, 0x00, 0x00] = .ok (.errMissing 0x1234) := by decide

/-- V45b. -/
theorem test_decode_errMulti :
    decode .errorPayload [0xF5, 0x01, 0x00, 0x00, 0x05, 0x21, 0xFE, 0xCA] = .ok (.errMulti 0xCAFE2105) := by decide

/-- V45c, and E7: only the full 32-bit value 500 is a missing peak. -/
theorem test_decode_errInternal :
    decode .errorPayload [0xE7, 0x03, 0x00, 0x00, 0xFF, 0xF0, 0x00, 0x00] = .ok (.errInternal 999 0xF0FF) ∧
    decode .errorPayload [0xF4, 0x01, 0x01, 0x00, 0x00, 0x00, 0x00, 0x00] = .ok (.errInternal 0x000101F4 0) := by decide

/-- V46b. -/
theorem test_decode_flag :
    decode .flag [0x65, 0x00, 0x00, 0x00, 0xEF, 0xBE, 0xAD, 0xDE] = .ok (.flag 101 0xDEADBEEF) := by decide

/-- A unit of the wrong length is refused by name (R61). -/
theorem test_decode_wrong_length :
    decode .flag [0, 0, 0, 0, 0, 0, 0] = .error .shortUnit ∧
    decode .flag [0, 0, 0, 0, 0, 0, 0, 0, 0] = .error .longUnit := by decide

/-- The encoder writes V1c's bytes. -/
theorem test_encode_hdrSpec :
    encode (.hdrSpec 291 1 40 0x3656C0F4A0A1B2C3) =
      [0x23, 0x91, 0x10, 0x00, 0x28, 0x00, 0x00, 0x00, 0xC3, 0xB2, 0xA1, 0xA0, 0xF4, 0xC0, 0x56, 0x36] := by decide

/-- The pseudo-unit `PEAKID ch=1 fib=2 sen=0x34` on the double nearest 1.55e-6 (V12). -/
theorem test_peakId : peakId 1 2 0x34 0x3EBA013305E6C9CE = .peak 0x05E61234 0x3EBA0133 := by decide

/-! ## One step per unit operation -/

/-- V3a. -/
theorem test_step_hdrIll3 :
    unitStep .header [0x00, 0x30, 0x10, 0x00, 0x08, 0, 0, 0, 0, 0, 0, 0, 0, 0, 0, 0] State.reset =
      some (⟨.terminated, 0, .peak, 0, false, false, .unknownSweepType, 3⟩, []) := by decide +kernel

/-- V3b: the fault wins over the error frame. -/
theorem test_step_hdrIll47 :
    unitStep .header [0xBC, 0xFA, 0, 0, 0, 0, 0, 0, 0, 0, 0, 0, 0, 0, 0, 0] State.reset =
      some (⟨.terminated, 0, .peak, 0, false, false, .unknownSweepType, 7⟩, []) := by decide +kernel

/-- V4e: the largest length. -/
theorem test_step_hdrPeak :
    unitStep .header [0, 0, 0x10, 0, 0xFF, 0xFF, 0xFF, 0xFF, 0, 0, 0, 0, 0, 0, 0, 0] State.reset =
      some (⟨.dataOffsetNormal, 0, .peak, 536870911, false, false, .noFault, 0⟩,
        [.headerInfo ⟨0, .peak, 0, 16, 4294967295, 0⟩]) := by decide +kernel

/-- V4a: an empty payload. -/
theorem test_step_hdrPeak_empty :
    unitStep .header [0, 0, 0x10, 0, 0, 0, 0, 0, 0, 0, 0, 0, 0, 0, 0, 0] State.reset =
      some (⟨.awaitingFlag, 0, .peak, 0, false, false, .noFault, 0⟩,
        [.headerInfo ⟨0, .peak, 0, 16, 0, 0⟩]) := by decide +kernel

/-- V1c. -/
theorem test_step_hdrSpec :
    unitStep .header [0x23, 0x91, 0x10, 0, 0x28, 0, 0, 0, 0xC3, 0xB2, 0xA1, 0xA0, 0xF4, 0xC0, 0x56, 0x36] State.reset =
      some (⟨.dataOffsetNormal, 0, .spectral, 5, true, false, .noFault, 0⟩,
        [.headerInfo ⟨291, .spectral, 1, 16, 40, 0x3656C0F4A0A1B2C3⟩]) := by decide +kernel

/-- V4c: the floor of 25 / 12. -/
theorem test_step_hdrTspk :
    unitStep .header [0, 0x20, 0x10, 0, 0x19, 0, 0, 0, 0, 0, 0, 0, 0, 0, 0, 0] State.reset =
      some (⟨.dataOffsetNormal, 0, .timestampedPeak, 2, false, false, .noFault, 0⟩,
        [.headerInfo ⟨0, .timestampedPeak, 0, 16, 25, 0⟩]) := by decide +kernel

/-- V4d: the floor of 11 / 12. -/
theorem test_step_hdrTspk_empty :
    unitStep .header [0, 0x20, 0x10, 0, 0x0B, 0, 0, 0, 0, 0, 0, 0, 0, 0, 0, 0] State.reset =
      some (⟨.awaitingFlag, 0, .timestampedPeak, 0, false, false, .noFault, 0⟩,
        [.headerInfo ⟨0, .timestampedPeak, 0, 16, 11, 0⟩]) := by decide +kernel

/-- V2c: the length of an error frame is not looked at. -/
theorem test_step_hdrPeakE :
    unitStep .header [0, 0, 0xFF, 0xFF, 0xFF, 0xFF, 0xFF, 0xFF, 0, 0, 0, 0, 0, 0, 0, 0] State.reset =
      some (⟨.dataOffsetError, 0, .peak, 0, false, true, .noFault, 0⟩,
        [.headerInfo ⟨0, .peak, 0, 65535, 4294967295, 0⟩]) := by decide +kernel

/-- V2b. -/
theorem test_step_hdrSpecE :
    unitStep .header [0x05, 0x10, 0x11, 0, 0, 0, 0, 0, 0x07, 0, 0, 0, 0, 0, 0, 0] State.reset =
      some (⟨.dataOffsetError, 0, .spectral, 0, false, true, .noFault, 0⟩,
        [.headerInfo ⟨5, .spectral, 0, 17, 0, 7⟩]) := by decide +kernel

/-- R100 for sweep type 2 and offset 256. -/
theorem test_step_hdrTspkE :
    unitStep .header [0x01, 0x20, 0x00, 0x01, 0x02, 0, 0, 0, 0x03, 0, 0, 0, 0, 0, 0, 0] State.reset =
      some (⟨.dataOffsetError, 0, .timestampedPeak, 0, false, true, .noFault, 0⟩,
        [.headerInfo ⟨1, .timestampedPeak, 0, 256, 2, 3⟩]) := by decide +kernel

/-- V40. -/
theorem test_step_peak_last :
    unitStep .peak [0x34, 0x12, 0x00, 0x00, 0x00, 0x00, 0xF0, 0x3F] (inFrame .peak 1 false) =
      some (⟨.awaitingFlag, 0, .peak, 0, false, false, .noFault, 0⟩,
        [.peak ⟨0x34, 2, 1, 0x3FF0000000007FFF, false, 0⟩]) := by decide +kernel

/-- V41, with its table: the computed force, the free NaN bits unused. -/
theorem test_step_peak_calibrated :
    unitStep .peak [0x34, 0x12, 0x66, 0xF9, 0xA0, 0x01, 0xBA, 0x3E]
        { inFrame .peak 2 false with cal := calOne 0x3EBA013305E67FFF } =
      some (⟨.dataOffsetNormal, 0, .peak, 1, false, false, .noFault, 0⟩,
        [.peak ⟨0x34, 2, 1, 0x3EBA01A0F9667FFF, true, 0x3FF3B14F6BC09E5A⟩]) := by decide +kernel

/-- V42. -/
theorem test_step_tspk :
    unitStep .tspk [0x34, 0x12, 0, 0, 0, 0, 0xF0, 0x3F, 0x00, 0x94, 0x35, 0x77] (inFrame .timestampedPeak 1 false) =
      some (⟨.awaitingFlag, 0, .timestampedPeak, 0, false, false, .noFault, 0⟩,
        [.timestampedPeak ⟨⟨0x34, 2, 1, 0x3FF0000000007FFF, false, 0⟩, 2000000000, 0x3FF0000000000000⟩]) := by
  decide +kernel

/-- V43. -/
theorem test_step_sinfo :
    unitStep .sinfo [0x05, 0x21, 0xEF, 0xBE, 0x08, 0, 0, 0] (inFrame .spectral 3 true) =
      some (⟨.dataOffsetNormal, 0, .spectral, 2, false, false, .noFault, 0⟩,
        [.spectralInfo ⟨0x05, 1, 2, 8⟩]) := by decide +kernel

/-- V43a: the info element alone, whatever pointCount says. -/
theorem test_step_sinfo_alone :
    unitStep .sinfo [0x34, 0x12, 0, 0, 0xFF, 0xFF, 0xFF, 0xFF] (inFrame .spectral 1 true) =
      some (⟨.awaitingFlag, 0, .spectral, 0, false, false, .noFault, 0⟩,
        [.spectralInfo ⟨0x34, 2, 1, 4294967295⟩]) := by decide +kernel

/-- V44. -/
theorem test_step_ssamp :
    unitStep .ssamp [0x01, 0x00, 0xFF, 0xFF, 0x00, 0x80, 0xFF, 0x7F] (inFrame .spectral 2 false) =
      some (⟨.dataOffsetNormal, 0, .spectral, 1, false, false, .noFault, 0⟩,
        [.spectralSample ⟨0x0001, 0xFFFF, 0x8000, 0x7FFF⟩]) := by decide +kernel

/-- V44: the signed values of its four patterns. -/
theorem test_amplitudes :
    (amplitude 0x0001, amplitude 0xFFFF, amplitude 0x8000, amplitude 0x7FFF) = (1, -1, -32768, 32767) := by decide

/-- V45a. -/
theorem test_step_errMissing :
    unitStep .errorPayload [0xF4, 0x01, 0, 0, 0x34, 0x12, 0, 0] (inErrorFrame .peak) =
      some (⟨.awaitingFlag, 0, .peak, 0, false, true, .noFault, 0⟩,
        [.error ⟨500, 0x1234, .missingPeak, 0x34, 2, 1⟩]) := by decide +kernel

/-- V45b. -/
theorem test_step_errMulti :
    unitStep .errorPayload [0xF5, 0x01, 0, 0, 0x05, 0x21, 0xFE, 0xCA] (inErrorFrame .spectral) =
      some (⟨.awaitingFlag, 0, .spectral, 0, false, true, .noFault, 0⟩,
        [.error ⟨501, 0xCAFE2105, .multiplePeaks, 0x05, 1, 2⟩]) := by decide +kernel

/-- V45c. -/
theorem test_step_errInternal :
    unitStep .errorPayload [0xE7, 0x03, 0, 0, 0xFF, 0xF0, 0, 0] (inErrorFrame .peak) =
      some (⟨.awaitingFlag, 0, .peak, 0, false, true, .noFault, 0⟩,
        [.error ⟨999, 0xF0FF, .internal, 0xFF, 0, 15⟩]) := by decide +kernel

/-- V46b: ERRFRAME stays until the next header. -/
theorem test_step_flag :
    unitStep .flag [0x65, 0, 0, 0, 0xEF, 0xBE, 0xAD, 0xDE] (atFlag true false) =
      some (⟨.awaitingHeader, 0, .peak, 0, false, true, .noFault, 0⟩, [.flag ⟨101, 0xDEADBEEF⟩]) := by decide +kernel

/-- V46c. -/
theorem test_step_flag_stops :
    unitStep .flag [0x65, 0, 0, 0, 0xEF, 0xBE, 0xAD, 0xDE] (atFlag true true) =
      some (⟨.terminated, 0, .peak, 0, false, true, .noFault, 0⟩, [.flag ⟨101, 0xDEADBEEF⟩]) := by decide +kernel

/-- V50 and V51: End and Err at a frame boundary. -/
theorem test_step_end_and_err :
    (nextOf (step { State.reset with input := [.endOfStream] })).map regs =
      some ⟨.terminated, 0, .peak, 0, false, false, .noFault, 0⟩ ∧
    (nextOf (step { State.reset with input := [.ioError] })).map regs =
      some ⟨.terminated, 0, .peak, 0, false, false, .ioFailure, 0⟩ := by decide

/-- V55: End with seven bytes of the flag in BUF. -/
theorem test_step_end_inside :
    (nextOf (step { atFlag false false with cnt := 7, input := [.endOfStream] })).map regs =
      some ⟨.terminated, 0, .peak, 0, false, false, .ioShortRead, 0⟩ := by decide

/-! ## Extractors, time, arithmetic -/

/-- E1, the row 0x8000F0F0, and V11e. -/
theorem test_extractors :
    (sensorId 0x8000F0F0, fiberId 0x8000F0F0, channelId 0x8000F0F0) = (0xF0, 0x0, 0xF) ∧
    wavelength 0x0000ABCD 0x7FF00000 = 0x7FF0000000007FFF := by decide

/-- V5: the third row, the seventh and the last. -/
theorem test_unixSeconds :
    (unixSeconds 2208988799999999999).toInt = -1 ∧ (unixSeconds 0x7FFFFFFFFFFFFFFF).toInt = 7014383236 ∧
    (unixSeconds 0xFFFFFFFFFFFFFFFF).toInt = 16237755273 := by decide

/-- V21c, V22 and V24. -/
theorem test_subTimestamp :
    subTimestampSeconds 3 = 0x3E19C511DC3A41E0 ∧ subTimestampSeconds 123456789 = 0x3FAF9ADD37396360 ∧
    subTimestampSeconds 0x80000000 = 0x3FF12E0BE826D695 := by decide +kernel

/-- V31, V33, V33e and V35e; no NaN arises, so the bits given for one do not matter. -/
theorem test_computeForce :
    computeForce 0 0x3EBA013305E67FFF 0x3EBA01A0F9667FFF = 0x3FF3B14F6BC09E5A ∧
    computeForce 0 0x3EBA013305E67FFF 0x3EB9FF0D44697FFF = 0xC0189DA3244D7CD3 ∧
    computeForce 0 0xBFF0000000000000 0xBFF0000000000000 = 0x8000000000000000 ∧
    computeForce 0 0x0000000000000001 0x0000000000000002 = 0x40D2A14E38E38E39 := by decide +kernel

/-- V34a, V34c, V35b, V35d and V35f: infinities, NaN and overflow. -/
theorem test_computeForce_special :
    f64IsNaN (computeForce 0 0x7FF0000000000000 0x7FF0000000000000) = true ∧
    f64IsNaN (computeForce 0 0x7FF0000000000000 0x3FF0000000000000) = true ∧
    computeForce 0 0x3FF0000000000000 0xFFF0000000000000 = 0xFFF0000000000000 ∧
    computeForce 0 0x3FF0000000000000 0x7FEFFFFFFFFFFFFF = 0x7FF0000000000000 ∧
    computeForce 0 0x0000000000000001 0x3FF0000000000000 = 0x7FF0000000000000 := by decide +kernel

/-- V36b and V36f: no entry, or an entry for a neighbour. -/
theorem test_calibrate_absent :
    calibrate [] 0 1 2 0x34 0x3EBA01A0F9667FFF = (false, 0) ∧
    calibrate (calOne 0x3EBA013305E67FFF) 0 1 2 0x35 0x3EBA01A0F9667FFF = (false, 0) := by decide

/-- V36c: under a zero reference the force is the free value. -/
theorem test_calibrate_zero :
    calibrate (calOne 0x8000000000000000) 5 1 2 0x34 0x3EBA01A0F9667FFF = (true, Sys2Proof.Config.freeForce 5) := rfl

/-- E8 and V44, V45b: packed records. -/
theorem test_pack :
    Record.pack (.headerInfo ⟨1, .peak, 0, 16, 8, 0⟩) = 0x00000000000000000000000400080001 ∧
    Record.pack (.peak ⟨0x34, 2, 1, 0x3FF0000000007FFF, false, 0⟩) = 0x03FF0000000007FFF1234 ∧
    Record.pack (.spectralSample ⟨0x0001, 0xFFFF, 0x8000, 0x7FFF⟩) = 0x7FFF8000FFFF0001 ∧
    Record.pack (.error ⟨501, 0xCAFE2105, .multiplePeaks, 0x05, 1, 2⟩) = 0x08415CAFE2105000001F5 := by decide

/-- V41 and P3 step 28: packed records with a force. -/
theorem test_pack_force :
    Record.pack (.peak ⟨0x34, 2, 1, 0x3EBA01A0F9667FFF, true, 0x3FF3B14F6BC09E5A⟩) =
      0x07FE7629ED7813CB53EBA01A0F9667FFF1234 ∧
    Record.pack (.timestampedPeak ⟨⟨0x34, 2, 1, 0x3EBA01A0F9667FFF, true, 0x3FF3B14F6BC09E5A⟩, 2000000000,
      0x3FF0000000000000⟩) = 0x07FE0000000000000EE6B28007FE7629ED7813CB53EBA01A0F9667FFF1234 := by decide

/-! ## The moves of the outside -/

/-- R220 and R221: a pulse of `rst` with no step between clears a fault in mid-frame; R222: without a record. -/
theorem test_reset_pulse :
    regs (({ inFrame .spectral 3 true with cnt := 5, fault := .ioFailure }.driveRst true).driveRst false) =
      ⟨.awaitingHeader, 0, .peak, 0, false, false, .noFault, 0⟩ := by decide

/-- R225: after start-up the next byte is the first of the new stream, and what the old one still offered is gone. -/
theorem test_startUp :
    (nextOf (startUp [(1, 2, 0x34, ⟨true, 1⟩)] true [.byte 7] { inFrame .peak 1 false with input := [.endOfStream] })).map
        (fun t => (t.input, t.cal, t.stopAfterErrorFrame, t.rst, t.phase)) =
      some ([.byte 7], calOne 1, true, false, .awaitingHeader) := by decide

/-! ## The host's two placements -/

/-- Rows of the opcode table, by their match words. -/
theorem test_decodeTableWord :
    decodeTableWord 32 0x00003000 = some (.hdrIll3 0 0 0 0 0) ∧ decodeTableWord 32 0x00102000 = some (.hdrTspk 0 0 0 0) ∧
    decodeTableWord 32 0x000001F5 = some (.errMulti 0) ∧ decodeTableWord 96 7 = some (.tspk 7 0 0) := by decide

/-- The very next step from reset runs the placed unit. -/
theorem test_withFetchWord :
    (nextOf (step (State.reset.withFetchWord 32 0x00101000))).map (·.output) =
      some [.headerInfo ⟨0, .spectral, 0, 16, 0, 0⟩] ∧
    (nextOf (step (State.reset.withFetchWord 64 0x3FF0000000001234))).map (·.output) =
      some [.peak ⟨0x34, 2, 1, 0x3FF0000000007FFF, false, 0⟩] ∧
    (nextOf (step (State.reset.withFetchWord 32 500))).map (·.output) =
      some [.error ⟨500, 0, .missingPeak, 0, 0, 0⟩] := by decide +kernel

/-! ## Witnesses: the hypotheses of each statement can be met together

A statement with several clauses has a witness for each, at boundary values. -/

/-- A header byte offered at the state `s`. -/
def withByte (b : Byte) (s : State) : State := { s with input := [.byte b] }

/-- A Terminated block whose reset is asserted, and one that is held. -/
theorem witness_ResetHeldWhileAsserted :
    (∃ (s : State) (level : Bool), (level = true ∨ s.rst = true) ∧ s.rst = false ∧ s.fault = .ioFailure) ∧
    (∃ (s : State) (level : Bool), (level = true ∨ s.rst = true) ∧ level = false) ∧
    (∃ s : State, State.Inv s ∧ s.rst = true) :=
  ⟨⟨{ State.reset with phase := .terminated, fault := .ioFailure }, true, by decide⟩,
   ⟨State.reset.driveRst true, false, by decide⟩,
   ⟨State.reset.driveRst true, by constructor <;> decide, by decide⟩⟩

/-- A state inside a normal frame that meets the invariant. -/
theorem inFrame_inv : State.Inv { inFrame .peak 1 false with cnt := 7, input := [.byte 0] } := by
  constructor <;> decide

theorem witness_StepKeepsInvariant : ∃ s t : State, State.Inv s ∧ step s = .next t := ⟨_, _, inFrame_inv, rfl⟩

theorem witness_StepTotalOnLiveStates : ∃ s : State, State.Inv s ∧ s.inReady = true ∧ s.input ≠ [] :=
  ⟨_, inFrame_inv, by decide, by decide⟩

theorem witness_OneTokenPerStep : ∃ s t : State, s.rst = false ∧ step s = .next t :=
  ⟨withByte 1 State.reset, _, rfl, rfl⟩

theorem witness_StepRunsDecodedUnit :
    ∃ (s : State) (b : Byte) (rest : List Token) (c : Context) (i : Instr),
      s.rst = false ∧ s.input = .byte b :: rest ∧ s.context = some c ∧ s.cnt.toNat + 1 = c.size ∧
      decode c (s.buf.toList.take (c.size - 1) ++ [b]) = .ok i :=
  ⟨withByte 0 { inFrame .timestampedPeak 1 false with cnt := 11 }, 0, [], .tspk, .tspk 0 0 0, by decide⟩

/-- The first byte of a unit, and the last one that does not complete it. -/
theorem witness_ByteStepBuffers :
    (∃ (s : State) (b : Byte) (rest : List Token) (c : Context), s.rst = false ∧ s.input = .byte b :: rest ∧
      s.context = some c ∧ s.cnt.toNat = 0 ∧ s.cnt.toNat + 1 < c.size) ∧
    (∃ (s : State) (b : Byte) (rest : List Token) (c : Context), s.rst = false ∧ s.input = .byte b :: rest ∧
      s.context = some c ∧ s.cnt.toNat = 14 ∧ s.cnt.toNat + 1 < c.size) :=
  ⟨⟨withByte 9 State.reset, 9, [], .header, by decide⟩,
   ⟨withByte 9 { State.reset with cnt := 14 }, 9, [], .header, by decide⟩⟩

/-- Each row of the dispatch table, with the byte that completes the unit. -/
theorem witness_DispatchFollowsSequencerState :
    (∃ s : State, s.phase = .awaitingHeader ∧ s.rst = false ∧ s.input = [.byte 0] ∧ s.cnt.toNat + 1 = 16) ∧
    (∃ s : State, s.phase = .dataOffsetNormal ∧ s.sweep = .peak ∧ s.rst = false ∧ s.input = [.byte 0] ∧
      s.cnt.toNat + 1 = 8) ∧
    (∃ s : State, s.phase = .dataOffsetNormal ∧ s.sweep = .spectral ∧ s.first = true ∧ s.rst = false ∧
      s.input = [.byte 0] ∧ s.cnt.toNat + 1 = 8) ∧
    (∃ s : State, s.phase = .dataOffsetNormal ∧ s.sweep = .spectral ∧ s.first = false ∧ s.rst = false ∧
      s.input = [.byte 0] ∧ s.cnt.toNat + 1 = 8) ∧
    (∃ s : State, s.phase = .dataOffsetNormal ∧ s.sweep = .timestampedPeak ∧ s.rst = false ∧ s.input = [.byte 0] ∧
      s.cnt.toNat + 1 = 12) ∧
    (∃ s : State, s.phase = .dataOffsetError ∧ s.rst = false ∧ s.input = [.byte 0] ∧ s.cnt.toNat + 1 = 8) ∧
    (∃ s : State, s.phase = .awaitingFlag ∧ s.rst = false ∧ s.input = [.byte 0] ∧ s.cnt.toNat + 1 = 8) :=
  ⟨⟨withByte 0 { State.reset with cnt := 15 }, by decide⟩,
   ⟨withByte 0 { inFrame .peak 1 false with cnt := 7 }, by decide⟩,
   ⟨withByte 0 { inFrame .spectral 1 true with cnt := 7 }, by decide⟩,
   ⟨withByte 0 { inFrame .spectral 1 false with cnt := 7 }, by decide⟩,
   ⟨withByte 0 { inFrame .timestampedPeak 1 false with cnt := 11 }, by decide⟩,
   ⟨withByte 0 { inErrorFrame .peak with cnt := 7 }, by decide⟩,
   ⟨withByte 0 { atFlag false false with cnt := 7 }, by decide⟩⟩

/-- The clause of a byte that does not complete its unit, one byte short of it. -/
theorem witness_DispatchFollowsSequencerState_buffers :
    ∃ s : State, s.phase = .awaitingFlag ∧ s.rst = false ∧ s.input = [.byte 0] ∧ s.cnt.toNat + 1 = 7 :=
  ⟨withByte 0 { atFlag false false with cnt := 6 }, by decide⟩

theorem witness_UnitRunIsOneOperation :
    ∃ (s : State) (c : Context) (bytes : List Byte) (rest : List Token) (i : Instr), s.rst = false ∧
      s.context = some c ∧ s.cnt = 0#5 ∧ s.input = bytes.map Token.byte ++ rest ∧ decode c bytes = .ok i :=
  ⟨{ atFlag false false with input := unitTokens [.flag 101 0xDEADBEEF] }, .flag,
    [0x65, 0, 0, 0, 0xEF, 0xBE, 0xAD, 0xDE], [], .flag 101 0xDEADBEEF, by decide⟩

theorem witness_EndAtFrameBoundaryIsClean :
    ∃ (s : State) (rest : List Token), s.rst = false ∧ s.input = .endOfStream :: rest ∧ s.phase = .awaitingHeader ∧
      s.cnt = 0#5 :=
  ⟨{ State.reset with input := [.endOfStream] }, [], by decide⟩

/-- Between two units of a frame, and one byte into a header. -/
theorem witness_EndInsideFrameIsShortRead :
    (∃ (s : State) (rest : List Token), s.rst = false ∧ s.input = .endOfStream :: rest ∧ s.phase ≠ .terminated ∧
      s.phase ≠ .awaitingHeader ∧ s.cnt = 0#5) ∧
    (∃ (s : State) (rest : List Token), s.rst = false ∧ s.input = .endOfStream :: rest ∧ s.phase = .awaitingHeader ∧
      s.cnt ≠ 0#5) :=
  ⟨⟨{ inFrame .peak 1 false with input := [.endOfStream] }, [], by decide⟩,
   ⟨{ State.reset with cnt := 1, input := [.endOfStream] }, [], by decide⟩⟩

theorem witness_IoErrorFaultsEverywhere :
    ∃ (s : State) (rest : List Token), s.rst = false ∧ s.input = .ioError :: rest ∧ s.phase ≠ .terminated :=
  ⟨{ State.reset with input := [.ioError] }, [], by decide⟩

/-- A Terminated block with a byte offered, and a live one with nothing offered. -/
theorem witness_NoStepWithoutToken :
    (∃ s : State, s.rst = false ∧ s.phase = .terminated ∧ s.input ≠ []) ∧
    (∃ s : State, s.rst = false ∧ s.phase ≠ .terminated ∧ s.input = []) :=
  ⟨⟨withByte 0 { State.reset with phase := .terminated }, by decide⟩, ⟨State.reset, by decide⟩⟩

/-- The smallest and the largest illegal sweep type. -/
theorem witness_IllegalSweepTypeFaults :
    (∃ (s : State) (h : Header), 2 < h.sweepType.toNat ∧ h.sweepType = 3#3 ∧ s.rst = false) ∧
    (∃ (s : State) (h : Header), 2 < h.sweepType.toNat ∧ h.sweepType = 7#3 ∧ s.rst = false) :=
  ⟨⟨State.reset, ⟨0, 3, 0, 16, 8, 0⟩, by decide⟩, ⟨State.reset, ⟨0, 7, 0, 0, 0, 0⟩, by decide⟩⟩

/-- The data offsets next to 16. -/
theorem witness_ErrorHeaderOpensErrorFrame : ∃ off off' : U16, off ≠ 16#16 ∧ off = 15#16 ∧ off' ≠ 16#16 ∧ off' = 17#16 :=
  ⟨15, 17, by decide⟩

/-- Sixteen bytes with a legal sweep type, and with an unknown one. -/
theorem witness_DecodeHeaderAgreesWithHdr :
    (∃ bytes : List Byte, bytes.length = 16 ∧ decodeHeader bytes = .ok ⟨0, 2, 0, 0, 0, 0⟩) ∧
    (∃ bytes : List Byte, bytes.length = 16 ∧ decodeHeader bytes = .error (.unknownSweepType 3)) :=
  ⟨⟨[0, 0x20, 0, 0, 0, 0, 0, 0, 0, 0, 0, 0, 0, 0, 0, 0], by decide⟩,
   ⟨[0, 0x30, 0, 0, 0, 0, 0, 0, 0, 0, 0, 0, 0, 0, 0, 0], by decide⟩⟩

theorem witness_HeaderInfoRoundTrip :
    ∃ (counter sweepType triggerMode : Nat) (tail : List Byte),
      counter ≤ 0xFFF ∧ sweepType ≤ 2 ∧ triggerMode ≤ 1 ∧ tail.length = 14 :=
  ⟨4095, 2, 1, List.replicate 14 0, by decide⟩

/-- The last element of a frame, and one that is not the last. -/
theorem witness_PeakElementRecord :
    ∃ s t : State, s.rem ≠ 0#32 ∧ s.rem = 1#32 ∧ t.rem ≠ 0#32 ∧ t.rem ≠ 1#32 :=
  ⟨inFrame .peak 1 false, inFrame .peak 2 false, by decide⟩

theorem witness_TimestampedPeakElementRecord :
    ∃ s t : State, s.rem ≠ 0#32 ∧ s.rem = 1#32 ∧ t.rem ≠ 0#32 ∧ t.rem ≠ 1#32 :=
  ⟨inFrame .timestampedPeak 1 false, inFrame .timestampedPeak 2 false, by decide⟩

theorem witness_SpectralInfoRecord : ∃ s t : State, s.rem ≠ 0#32 ∧ s.rem = 1#32 ∧ t.rem ≠ 0#32 ∧ t.rem ≠ 1#32 :=
  ⟨inFrame .spectral 1 true, inFrame .spectral 2 true, by decide⟩

theorem witness_SpectralSampleRecord : ∃ s t : State, s.rem ≠ 0#32 ∧ s.rem = 1#32 ∧ t.rem ≠ 0#32 ∧ t.rem ≠ 1#32 :=
  ⟨inFrame .spectral 1 false, inFrame .spectral 2 false, by decide⟩

/-- As many elements as REM, and fewer. -/
theorem witness_ElementDoneCountsDown :
    ∃ (is : List Instr) (s t : State), is ≠ [] ∧ (∀ i ∈ is, isElement i = true) ∧ is.length = s.rem.toNat ∧
      is.length < t.rem.toNat :=
  ⟨[.sinfo 0 0, .ssamp 0 0 0 0], inFrame .spectral 2 true, inFrame .spectral 3 true, by decide⟩

/-- The error ids next to 500 and 501. -/
theorem witness_ErrorPayloadRecord :
    ∃ e e' : U32, e ≠ 500#32 ∧ e ≠ 501#32 ∧ e = 499#32 ∧ e' ≠ 500#32 ∧ e' ≠ 501#32 ∧ e' = 502#32 :=
  ⟨499, 502, by decide⟩

theorem witness_PayloadAndFlagNeverFault : ∃ i : Instr, i.context ≠ .header := ⟨.flag 0 0, by decide⟩

theorem witness_UnexpectedDataOffsetNeverRaised :
    (∃ s t : State, step s = .next t ∧ s.fault ≠ .unexpectedDataOffset) ∧
    (∃ h : Header, h.sweepType.toNat ≤ 2 ∧ h.dataOffset ≠ 16#16) :=
  ⟨⟨withByte 0 State.reset, _, rfl, by decide⟩, ⟨⟨0, 2, 0, 17, 0, 0⟩, by decide⟩⟩

/-- The hypotheses of PhaseTransitions at a state. -/
def PhaseTransitionsApplies (s : State) (c : Context) : Prop :=
  ∃ (t : State) (tok : Token), s.rst = false ∧ s.context = some c ∧ s.input = tok :: t.input ∧
    (s.phase = .dataOffsetNormal → s.rem ≠ 0#32) ∧ step s = .next t

/-- A byte that completes its unit in each phase, and one that is just short of it. -/
theorem witness_PhaseTransitions_byte :
    PhaseTransitionsApplies (withByte 0 { State.reset with cnt := 15 }) .header ∧
    PhaseTransitionsApplies (withByte 0 { inFrame .peak 1 false with cnt := 7 }) .peak ∧
    PhaseTransitionsApplies (withByte 0 { inFrame .spectral 2 true with cnt := 7 }) .sinfo ∧
    PhaseTransitionsApplies (withByte 0 { inErrorFrame .peak with cnt := 7 }) .errorPayload ∧
    PhaseTransitionsApplies (withByte 0 { atFlag true true with cnt := 7 }) .flag ∧
    PhaseTransitionsApplies (withByte 0 { atFlag true true with cnt := 6 }) .flag := by
  and_intros <;> exact ⟨_, _, rfl, rfl, rfl, by decide, rfl⟩

/-- End at a frame boundary and one byte past it, an I/O failure, and a Terminated block. -/
theorem witness_PhaseTransitions_end :
    PhaseTransitionsApplies { State.reset with input := [.endOfStream] } .header ∧
    PhaseTransitionsApplies { State.reset with cnt := 1, input := [.endOfStream] } .header ∧
    PhaseTransitionsApplies { State.reset with input := [.ioError] } .header ∧
    ∃ s : State, s.rst = false ∧ s.phase = .terminated := by
  and_intros
  · exact ⟨_, _, rfl, rfl, rfl, by decide, rfl⟩
  · exact ⟨_, _, rfl, rfl, rfl, by decide, rfl⟩
  · exact ⟨_, _, rfl, rfl, rfl, by decide, rfl⟩
  · exact ⟨{ State.reset with phase := .terminated }, rfl, rfl⟩

/-- Each of the five ways. -/
theorem witness_FiveWaysToTerminate (s : State)
    (h : s ∈ [{ State.reset with input := [.endOfStream] }, withByte 0 { atFlag true true with cnt := 7 },
      { State.reset with cnt := 15, input := [.endOfStream] }, { State.reset with input := [.ioError] },
      withByte 0 { State.reset with buf := writeFrom [0, 0x30] 0 State.reset.buf, cnt := 15 }]) :
    ∃ t : State, s.rst = false ∧ step s = .next t ∧ t.phase = .terminated := by
  simp only [List.mem_cons, List.not_mem_nil, or_false] at h
  rcases h with rfl | rfl | rfl | rfl | rfl <;> exact ⟨_, rfl, rfl, rfl⟩

/-- A step that emits nothing, and one that emits. -/
theorem witness_RecordsAppendOnly :
    (∃ s t : State, s.rst = false ∧ step s = .next t ∧ t.output = s.output) ∧
    (∃ s t : State, s.rst = false ∧ step s = .next t ∧ t.output ≠ s.output) :=
  ⟨⟨withByte 0 State.reset, _, rfl, rfl, rfl⟩,
   ⟨withByte 0 { atFlag false false with cnt := 7 }, _, rfl, rfl, by decide⟩⟩

theorem witness_ParametersNeverChange : ∃ s t : State, step s = .next t := ⟨withByte 0 State.reset, _, rfl⟩

/-- The second state has everything an earlier frame can leave behind. -/
theorem witness_FrameIndependentOfEarlierFrames :
    ∃ s t : State, s.phase = .awaitingHeader ∧ s.cnt = 0#5 ∧ s.errFrame ≠ t.errFrame ∧
      t = { s with buf := t.buf, sweep := t.sweep, rem := t.rem, first := t.first, errFrame := t.errFrame } :=
  ⟨State.reset, { State.reset with buf := Vector.replicate 16 0xFF, sweep := .spectral, first := true, errFrame := true },
    by decide⟩

/-- Inside a frame too two states that agree on what is live can differ: in what BUF holds from CNT on. -/
theorem witness_FrameIndependentOfEarlierFrames_step : ∃ s t : State, s ≠ t ∧ State.SameLive s t :=
  ⟨inFrame .peak 1 false, { inFrame .peak 1 false with buf := Vector.replicate 16 0xFF }, by decide, by
    constructor <;> first | rfl | decide⟩

/-- An error frame under either value of the switch. -/
theorem witness_ErrorFrameRun (stop : Bool) :
    ∃ (s : State) (h : Header) (e d sc r : U32) (rest : List Token), s.stopAfterErrorFrame = stop ∧
      s.atBoundary = true ∧ h.sweepType.toNat ≤ 2 ∧ h.dataOffset ≠ 16#16 ∧
      s.input = unitTokens [headerInstr h, errorInstr e d, .flag sc r] ++ rest :=
  ⟨{ State.reset with
      stopAfterErrorFrame := stop
      input := unitTokens [.hdrPeakE 2 0 32 8 0, .errInternal 999 0xF0FF, .flag 5 0] },
    ⟨2, 0, 0, 32, 8, 0⟩, 999, 0xF0FF, 5, 0, [], rfl, by cases stop <;> decide⟩

theorem witness_SpectralFrameRun :
    ∃ (s : State) (cnt : U12) (trig : BitVec 1) (len : U32) (ts : U64) (w0 n sc r : U32)
      (samples : List SpectralSample) (rest : List Token),
      s.atBoundary = true ∧ len.toNat = 8 + 8 * samples.length ∧ samples ≠ [] ∧
      s.input = unitTokens ([.hdrSpec cnt trig len ts, .sinfo w0 n] ++
        samples.map (fun a => .ssamp a.amp1 a.amp2 a.amp3 a.amp4) ++ [.flag sc r]) ++ rest :=
  ⟨{ State.reset with input := unitTokens [.hdrSpec 8 0 16 1, .sinfo 0xBEEF2105 8, .ssamp 1 2 3 4, .flag 101 0] },
    8, 0, 16, 1, 0xBEEF2105, 8, 101, 0, [⟨1, 2, 3, 4⟩], [], by decide⟩

/-- The info element alone: no sample. -/
theorem witness_SpectralFrameRun_no_sample :
    ∃ (s : State) (cnt : U12) (trig : BitVec 1) (len : U32) (ts : U64) (w0 n sc r : U32)
      (samples : List SpectralSample) (rest : List Token),
      s.atBoundary = true ∧ len.toNat = 8 + 8 * samples.length ∧ samples = [] ∧
      s.input = unitTokens ([.hdrSpec cnt trig len ts, .sinfo w0 n] ++
        samples.map (fun a => .ssamp a.amp1 a.amp2 a.amp3 a.amp4) ++ [.flag sc r]) ++ rest :=
  ⟨{ State.reset with input := unitTokens [.hdrSpec 8 0 8 1, .sinfo 0xBEEF2105 8, .flag 101 0] },
    8, 0, 8, 1, 0xBEEF2105, 8, 101, 0, [], [], by decide⟩

/-- One element of eight bytes and a remainder of four. -/
theorem witness_PeakFrameRun :
    ∃ (s : State) (cnt : U12) (trig : BitVec 1) (len : U32) (ts : U64) (sc r : U32) (peaks : List (U32 × U32))
      (rest : List Token), s.atBoundary = true ∧ peaks.length = len.toNat / 8 ∧ peaks ≠ [] ∧
      s.input = unitTokens ([.hdrPeak cnt trig len ts] ++ peaks.map (fun p => .peak p.1 p.2) ++ [.flag sc r]) ++ rest :=
  ⟨{ State.reset with input := unitTokens [.hdrPeak 1 0 12 0, .peak 0x1234 0x3FF00000, .flag 9 0] },
    1, 0, 12, 0, 9, 0, [(0x1234, 0x3FF00000)], [], by decide⟩

theorem witness_TimestampedPeakFrameRun :
    ∃ (s : State) (cnt : U12) (trig : BitVec 1) (len : U32) (ts : U64) (sc r : U32) (peaks : List (U32 × U32 × U32))
      (rest : List Token), s.atBoundary = true ∧ peaks.length = len.toNat / 12 ∧ peaks ≠ [] ∧
      s.input = unitTokens ([.hdrTspk cnt trig len ts] ++ peaks.map (fun p => .tspk p.1 p.2.1 p.2.2) ++ [.flag sc r]) ++
        rest :=
  ⟨{ State.reset with input := unitTokens [.hdrTspk 1 0 12 0, .tspk 0x1234 0x3FF00000 3, .flag 9 0] },
    1, 0, 12, 0, 9, 0, [(0x1234, 0x3FF00000, 3)], [], by decide⟩

theorem witness_DecodeOfEncode : ∃ i : Instr, i.wellFormed = true ∧ i = .hdrIll47 4095 7 1 0 0 0 :=
  ⟨_, by decide, rfl⟩

/-- A unit of each length class: right, short, long. -/
theorem witness_EveryUnitHasOneMeaning :
    ∃ a b c : List Byte, a.length = Context.tspk.size ∧ b.length + 1 = Context.tspk.size ∧
      c.length = Context.tspk.size + 1 :=
  ⟨List.replicate 12 0, List.replicate 11 0, List.replicate 13 0, by decide⟩

theorem witness_TableRowsDoNotOverlap :
    ∃ (r q : OpcodeRow) (u : BitVec 128), r ∈ opcodeRows ∧ q ∈ opcodeRows ∧ r ≠ q ∧ r.priority = q.priority ∧
      r.applies .errorPayload u = true :=
  ⟨⟨"ERR.MISSING", .errorPayload, 1, 500, 0xFFFFFFFF⟩, ⟨"ERR.MULTI", .errorPayload, 1, 501, 0xFFFFFFFF⟩, 500, by decide⟩

theorem witness_WavelengthMaskLaw :
    ∃ v0 w0 : U32, v0 ≠ w0 ∧ v0.extractLsb' 16 16 = w0.extractLsb' 16 16 := ⟨0x05E61234, 0x05E6FFFF, by decide⟩

/-- A finite result, a tie, and the smallest overflow. -/
theorem witness_RoundsToNearestEven :
    (∃ (n d : Nat), 0 < d ∧ f64IsFinite (f64Round false n d) = true) ∧
    (∃ (n d : Nat) (p : F64), 0 < d ∧ f64IsFinite p = true ∧ f64Units p ≠ f64Units (f64Round false n d) ∧
      ((f64Units p : Int) * d - n).natAbs = ((f64Units (f64Round false n d) : Int) * d - n).natAbs) ∧
    (∃ (n d : Nat), 0 < d ∧ (2 ^ 54 - 1) * 2 ^ 2044 * d = n ∧ f64IsFinite (f64Round false n d) = false) :=
  ⟨⟨1, 3, by decide +kernel⟩, ⟨5, 2, 3, by decide +kernel⟩, ⟨(2 ^ 54 - 1) * 2 ^ 2044, 1, by decide +kernel⟩⟩

/-- Operands for each clause on the operations: a difference, a division by a zero, and each way to a NaN. -/
theorem witness_RoundsToNearestEven_operations :
    (∃ a b : F64, f64IsFinite a = true ∧ f64IsFinite b = true ∧ f64IsZero b = false ∧ f64Value a ≠ f64Value b) ∧
    (∃ a b : F64, f64IsFinite a = true ∧ f64IsFinite b = true ∧ f64IsZero a = false ∧ f64IsZero b = true) ∧
    (∃ a b : F64, f64IsNaN a = true ∨ f64IsNaN b = true) ∧
    (∃ a b : F64, f64IsInf a = true ∧ f64IsInf b = true ∧ f64Sign a = f64Sign b) ∧
    (∃ a b : F64, f64IsZero a = true ∧ f64IsZero b = true) ∧ (∃ a b : F64, f64IsZero a = true ∧ f64IsInf b = true) :=
  ⟨⟨0x0000000000000002, 0x8000000000000001, by decide⟩, ⟨1, 0x8000000000000000, by decide⟩,
   ⟨0x7FF0000000000001, 0, by decide⟩, ⟨0xFFF0000000000000, 0xFFF0000000000000, by decide⟩,
   ⟨0, 0x8000000000000000, by decide⟩, ⟨0, 0x7FF0000000000000, by decide⟩⟩

theorem witness_ForceAtReferenceIsZero : ∃ ref : F64, f64IsFinite ref = true ∧ f64IsZero ref = false :=
  ⟨0xBFF0000000000000, by decide⟩

/-- A negative shift, and no shift at all. -/
theorem witness_ForceSignLaw :
    ∃ ref measured : F64, f64IsFinite ref = true ∧ f64IsZero ref = false ∧ f64IsFinite measured = true ∧
      measured = 0x0000000000000000 :=
  ⟨0x3FF0000000000000, 0, by decide⟩

/-- Two measured wavelengths in order, the smallest positive reference. -/
theorem witness_ForceSignLaw_monotone :
    ∃ ref low high : F64, f64IsFinite ref = true ∧ f64IsZero ref = false ∧ f64Sign ref = false ∧
      f64IsFinite low = true ∧ f64IsFinite high = true ∧ f64Value low ≤ f64Value high ∧ low ≠ high :=
  ⟨1, 0x8000000000000001, 2, by decide⟩

theorem witness_ForceOfNaNIsNaN :
    ∃ p ref measured : F64, f64IsNaN p = true ∧ (f64IsNaN ref = true ∨ f64IsNaN measured = true) ∧ f64IsNaN ref = false :=
  ⟨0x7FF0000000000001, 0x3FF0000000000000, 0xFFF8000000000000, by decide⟩

/-- No entry, a zero reference of either sign, and the smallest reference that is no zero. -/
theorem witness_CalibrateThreeOutcomes :
    (calRead [] 1 2 0x34).valid = false ∧
    ((calRead (calOne 0) 1 2 0x34).valid = true ∧ (calRead (calOne 0) 1 2 0x34).reference = 0) ∧
    ((calRead (calOne 0x8000000000000000) 1 2 0x34).valid = true ∧
      (calRead (calOne 0x8000000000000000) 1 2 0x34).reference = 0x8000000000000000) ∧
    ((calRead (calOne 1) 1 2 0x34).valid = true ∧ (calRead (calOne 1) 1 2 0x34).reference ≠ 0 ∧
      (calRead (calOne 1) 1 2 0x34).reference ≠ 0x8000000000000000) := by decide

/-- A canonical table, with rst at either level. -/
theorem witness_CalibrationTableLoad :
    ∃ s t : State, CalTable.wf s.cal = true ∧ s.cal ≠ [] ∧ s.rst = true ∧ CalTable.wf t.cal = true ∧ t.rst = false :=
  ⟨{ State.reset with rst := true, cal := calOne 1 }, State.reset, by decide⟩

/-- A step without a record, and one with. -/
theorem witness_OutputPortShowsStep :
    (∃ s t : State, s.rst = false ∧ step s = .next t ∧ (outPort s t).outValid = false) ∧
    (∃ s t : State, s.rst = false ∧ step s = .next t ∧ (outPort s t).outValid = true) :=
  ⟨⟨withByte 0 State.reset, _, rfl, rfl, rfl⟩, ⟨withByte 0 { atFlag false false with cnt := 7 }, _, rfl, rfl, rfl⟩⟩

end Sys2Proof.Tests
end

section
/-!
The header decoder (40_header_decoder.md): an unknown sweep type faults and ends the run (R101), and the three fields of
`info` come back from the bytes they were sent as (R106).
-/

namespace Sys2Proof

/-! ## The illegal sweep types (R73, R101) -/

/-- An illegal sweep type is 3, or one of the four with bit 2 set: the two ILL rows leave none out. -/
theorem sweepType_getLsbD_two_of_illegal :
    ∀ {st : BitVec 3}, 2 < st.toNat → st ≠ 3#3 → st.getLsbD 2 = true := by decide

/-! ## Fields at the low bits of a unit (R50, R63, R64) -/

/-- The bytes that arrive later weigh more. -/
theorem leValue_append : ∀ bs cs : List Byte, leValue (bs ++ cs) = leValue bs + 256 ^ bs.length * leValue cs
  | [], cs => by simp [leValue]
  | b :: bs, cs => by
    rw [List.cons_append, leValue, leValue, leValue_append bs cs, List.length_cons, Nat.pow_succ']
    ring

/-- The low bits of a unit are those of the number its first bytes carry, whatever follows. -/
theorem unitValue_bytesOf_append_mod {n k : Nat} (hk : k ≤ 8 * n) (hn : n ≤ 16) (v : Nat) (tail : List Byte) :
    (unitValue (bytesOf n v ++ tail)).toNat % 2 ^ k = v % 2 ^ k := by
  have hdvd : 2 ^ k ∣ 256 ^ n := by
    rw [show (256 : Nat) = 2 ^ 8 from rfl, ← Nat.pow_mul]
    exact Nat.pow_dvd_pow 2 hk
  have hlow : (v % 256 ^ n + 256 ^ n * leValue tail) % 2 ^ k = v % 2 ^ k := by
    rw [Nat.add_mod, Nat.mod_eq_zero_of_dvd (hdvd.mul_right _), Nat.add_zero, Nat.mod_mod, Nat.mod_mod_of_dvd _ hdvd]
  rw [unitValue, BitVec.toNat_ofNat, Nat.mod_mod_of_dvd _ (Nat.pow_dvd_pow 2 (by omega)), leValue_append,
    leValue_bytesOf, bytesOf_length, hlow]

/-- A field that lies in a unit's first `n` bytes is read off the number those bytes carry. -/
theorem extract_unitValue_bytesOf_append {n start len : Nat} (hk : start + len ≤ 8 * n) (hn : n ≤ 16) (v : Nat)
    (tail : List Byte) :
    ((unitValue (bytesOf n v ++ tail)).extractLsb' start len).toNat = v / 2 ^ start % 2 ^ len := by
  rw [BitVec.extractLsb'_toNat, Nat.shiftRight_eq_div_pow, ← Nat.mod_mul_right_div_self, ← Nat.pow_add,
    unitValue_bytesOf_append_mod hk hn, Nat.pow_add, Nat.mod_mul_right_div_self]

/-! ## The two bytes of `info` (R64, R106) -/

/-- The three fields of `info` do not overlap, so the disjunction is their sum. -/
theorem info_eq_sum {counter sweepType : Nat} (triggerMode : Nat) (hc : counter ≤ 0xFFF) (hs : sweepType ≤ 2) :
    (triggerMode <<< 15) ||| (sweepType <<< 12) ||| counter = triggerMode * 2 ^ 15 + (sweepType * 2 ^ 12 + counter) := by
  have hlow : sweepType <<< 12 + counter < 2 ^ 15 := by
    rw [Nat.shiftLeft_eq]
    omega
  rw [Nat.or_assoc, ← Nat.shiftLeft_add_eq_or_of_lt (show counter < 2 ^ 12 by omega) sweepType,
    ← Nat.shiftLeft_add_eq_or_of_lt hlow triggerMode, Nat.shiftLeft_eq, Nat.shiftLeft_eq]

/-- Sixteen bytes with a legal sweep type decode to their fields (R103, R105). -/
theorem decodeHeader_of_legal {bytes : List Byte} (hlen : bytes.length = 16)
    (hst : (headerFields (unitValue bytes)).sweepType.toNat ≤ 2) :
    decodeHeader bytes = .ok (headerFields (unitValue bytes)) := by
  unfold decodeHeader
  rw [if_neg (by omega), if_neg (by omega)]
  exact if_neg (by omega)

end Sys2Proof

namespace Sys2Proof.Machine

/-- Whichever ILL row the decoder picks, its meaning is the fault of the value; the data offset plays no part. -/
theorem exec_headerInstr_of_illegal {h : Header} (hst : 2 < h.sweepType.toNat) (s : State) :
    exec (headerInstr h) s = illegalHeader h.sweepType s := by
  unfold headerInstr
  by_cases h3 : h.sweepType = 3#3
  · rw [if_pos h3, h3]
    rfl
  · rw [if_neg h3, if_pos (sweepType_getLsbD_two_of_illegal hst h3)]
    rfl

/-- After a fault the block takes no step until reset (R160, R206). -/
theorem step_raiseFault {s : State} (hr : s.rst = false) (code : FaultCode) (info : BitVec 3) :
    step (s.raiseFault code info) = .fault .terminated :=
  step_terminated hr (State.context_eq_none.mpr rfl)

/-- Settles O15: the header row of an illegal sweep type is an ILL row, its meaning is the fault entry, and a Terminated
block has no step. -/
theorem illegalSweepTypeFaults : Obligations.IllegalSweepTypeFaults := by
  intro s
  refine ⟨fun _ _ _ _ _ => rfl, fun _ _ _ _ _ _ => rfl, fun h hst => ?_⟩
  refine ⟨s.raiseFault .unknownSweepType h.sweepType, exec_headerInstr_of_illegal hst s, rfl, fun hr u hu => ?_⟩
  rw [step_raiseFault hr] at hu
  cases hu

/-- Settles O19: each field of `info` is a slice of the unit's first two bytes, and there `info` is the sum of its fields at
their weights. -/
theorem headerInfoRoundTrip : Obligations.HeaderInfoRoundTrip := by
  intro counter sweepType triggerMode tail hc hs ht htail info
  have hinfo : info = triggerMode * 2 ^ 15 + (sweepType * 2 ^ 12 + counter) := info_eq_sum triggerMode hc hs
  have field {start len : Nat} (hk : start + len ≤ 16) :=
    extract_unitValue_bytesOf_append (n := 2) hk (by decide) info tail
  have hcounter : (headerFields (unitValue (bytesOf 2 info ++ tail))).packetCounter.toNat = counter :=
    (field (start := 0) (len := 12) (by decide)).trans (by omega)
  have hsweep : (headerFields (unitValue (bytesOf 2 info ++ tail))).sweepType.toNat = sweepType :=
    (field (start := 12) (len := 3) (by decide)).trans (by omega)
  have htrigger : (headerFields (unitValue (bytesOf 2 info ++ tail))).triggerMode.toNat = triggerMode :=
    (field (start := 15) (len := 1) (by decide)).trans (by omega)
  have hlen : (bytesOf 2 info ++ tail).length = 16 := by
    rw [List.length_append, bytesOf_length, htail]
  exact ⟨_, decodeHeader_of_legal hlen (hsweep.le.trans hs), hcounter, hsweep, htrigger⟩

end Sys2Proof.Machine
end

section
/-!
The payload decoders (41_payload_decoders.md): what ends an element unit (R164), the spectral sample (R113), the class of an
error (R115) and the flag (R116).
-/

namespace Sys2Proof.Machine

/-! ## The tail of an element unit (R164) -/

/-- ElementDone asks for the flag exactly when the element was the last one REM counted. -/
theorem State.elementDone_eq (s : State) :
    s.elementDone = { s with
      cnt := 0#5, rem := s.rem - 1#32
      phase := if s.rem = 1#32 then .awaitingFlag else .dataOffsetNormal } := by
  have hlast : s.rem - 1#32 = 0#32 ↔ s.rem = 1#32 := sub_eq_zero
  simp only [State.elementDone, hlast]

/-! ## The signed value of an amplitude (R113) -/

theorem amplitude_bounds (a : U16) : -32768 ≤ amplitude a ∧ amplitude a ≤ 32767 :=
  ⟨BitVec.le_toInt a, Int.le_of_lt_add_one (BitVec.toInt_lt (x := a))⟩

/-- The patterns below the sign bit stand for themselves, the others for 2^16 less. -/
theorem amplitude_eq_ite (a : U16) :
    amplitude a = if a.toNat < 0x8000 then (a.toNat : Int) else (a.toNat : Int) - 0x10000 := by
  have hsign : 2 * a.toNat < 2 ^ 16 ↔ a.toNat < 0x8000 := by omega
  simp only [amplitude, BitVec.toInt_eq_toNat_cond, hsign]
  rfl

/-! ## What the status bits decide (R115, R116) -/

theorem classifyError_code_toNat (e : U32) :
    (ErrorClass.code (classifyError e)).toNat = if e.toNat = 500 then 0 else if e.toNat = 501 then 1 else 2 := by
  have h500 : e = 500#32 ↔ e.toNat = 500 := BitVec.toNat_inj.symm
  have h501 : e = 501#32 ↔ e.toNat = 501 := BitVec.toNat_inj.symm
  simp only [classifyError, h500, h501]
  split_ifs <;> rfl

/-- The run ends after a flag only where the parameter asks for it and the frame was an error frame. -/
theorem phaseAfterFlag_eq_ite (stop err : Bool) :
    phaseAfterFlag stop err = if stop = true ∧ err = true then .terminated else .awaitingHeader := by
  simp only [phaseAfterFlag, Bool.and_eq_true]

/-! ## The obligations -/

/-- Settles O24: the meaning of SSAMP is an emit and then ElementDone, and an amplitude is read in two's complement. -/
theorem spectralSampleRecord : Obligations.SpectralSampleRecord := by
  intro a1 a2 a3 a4 s _
  exact ⟨congrArg Host.Outcome.next (State.elementDone_eq (s.emit (.spectralSample ⟨a1, a2, a3, a4⟩))),
    fun a _ => ⟨(amplitude_bounds a).1, (amplitude_bounds a).2, amplitude_eq_ite a⟩⟩

/-- Settles O27: two 32-bit ids are equal exactly when their numbers are. -/
theorem errorClassification : Obligations.ErrorClassification := classifyError_code_toNat

/-- Settles O28: the meaning of FLAG is an emit and the end of the unit, in the PHASE that R168 names. -/
theorem flagRecordAndNextPhase : Obligations.FlagRecordAndNextPhase := by
  intro sc r s
  rw [← phaseAfterFlag_eq_ite]
  rfl

end Sys2Proof.Machine
end

section
/-!
The field extractors (42_field_extractors.md): the three ids of word0 (R130 to R132, R135), and the mask that takes them out
of the wavelength (R133, R136).
-/

namespace Sys2Proof.Machine

/-! ## A slice of a word is a shift and a mask -/

theorem extractLsb'_toNat_eq_shift_and {len : Nat} {mask : U32} (hmask : mask.toNat = 2 ^ len - 1) (w : U32)
    (start : Nat) : (w.extractLsb' start len).toNat = ((w >>> start) &&& mask).toNat := by
  rw [BitVec.extractLsb'_toNat, BitVec.toNat_and, BitVec.toNat_ushiftRight, hmask, Nat.and_two_pow_sub_one_eq_mod]

/-! ## The ids tile the low half of word0 (R135) -/

theorem ids_append_eq_lowHalf (w0 : U32) : channelId w0 ++ fiberId w0 ++ sensorId w0 = w0.extractLsb' 0 16 := by
  unfold channelId fiberId sensorId
  rw [BitVec.extractLsb'_append_extractLsb'_eq_extractLsb' (by decide),
    BitVec.extractLsb'_append_extractLsb'_eq_extractLsb' (by decide)]

theorem lowHalf_setWidth_eq_and (w0 : U32) : (w0.extractLsb' 0 16).setWidth 32 = w0 &&& 0xFFFF#32 := by
  apply BitVec.eq_of_toNat_eq
  rw [BitVec.toNat_setWidth_of_le (by decide)]
  exact extractLsb'_toNat_eq_shift_and rfl w0 0

/-! ## The mask keeps the upper half of word0 and nothing else (R133, R136) -/

theorem maskedWord_append (hi lo : U16) : maskedWord (hi ++ lo) = hi ++ 0x7FFF#16 := by
  have hkeep : (0xFFFF0000#32) = BitVec.allOnes 16 ++ 0#16 := rfl
  have hsentinel : (0x00007FFF#32) = 0#16 ++ 0x7FFF#16 := rfl
  rw [maskedWord, hkeep, hsentinel, BitVec.and_append, BitVec.or_append, BitVec.and_allOnes, BitVec.and_zero,
    BitVec.or_zero, BitVec.zero_or]

theorem maskedWord_eq_append (w0 : U32) : maskedWord w0 = w0.extractLsb' 16 16 ++ 0x7FFF#16 := by
  rw [← maskedWord_append _ (w0.extractLsb' 0 16), BitVec.extractLsb'_append_extractLsb' (w := 16)]

theorem wavelength_congr {v0 w0 : U32} (h : v0.extractLsb' 16 16 = w0.extractLsb' 16 16) (w1 : U32) :
    wavelength v0 w1 = wavelength w0 w1 := by
  rw [wavelength, wavelength, maskedWord_eq_append, maskedWord_eq_append, h]

/-- Whatever 16 bits are put in the place of the ids, the upper half stays. -/
theorem upperHalf_replace_ids (w0 : U32) (x : U16) :
    ((w0 &&& 0xFFFF0000#32) ||| x.setWidth 32).extractLsb' 16 16 = w0.extractLsb' 16 16 := by
  have hkeep : (0xFFFF0000#32).extractLsb' 16 16 = BitVec.allOnes 16 := rfl
  have hx : (x.setWidth 32).extractLsb' 16 16 = 0#16 := by
    rw [show x.setWidth 32 = 0#16 ++ x from BitVec.setWidth_eq_append (by decide)]
    exact BitVec.extractLsb'_append_eq_left
  rw [BitVec.extractLsb'_or, BitVec.extractLsb'_and, hkeep, hx, BitVec.and_allOnes, BitVec.or_zero]

theorem upperHalf_set_ids (w0 : U32) : (w0 ||| 0xFFFF#32).extractLsb' 16 16 = w0.extractLsb' 16 16 := by
  have hones : (0xFFFF#32).extractLsb' 16 16 = 0#16 := rfl
  rw [BitVec.extractLsb'_or, hones, BitVec.or_zero]

/-! ## The obligations -/

/-- Settles O48: each id is a slice of word0, and the three slices side by side are its low half. -/
theorem idFieldsLaw : Obligations.IdFieldsLaw := by
  intro w0
  have htile : ((channelId w0).setWidth 32 <<< 12) ||| ((fiberId w0).setWidth 32 <<< 8) ||| (sensorId w0).setWidth 32 =
      w0 &&& 0xFFFF#32 := by
    rw [← lowHalf_setWidth_eq_and, ← ids_append_eq_lowHalf,
      BitVec.setWidth_append_append_eq_shiftLeft_setWidth_or]
  exact ⟨extractLsb'_toNat_eq_shift_and rfl w0 0, extractLsb'_toNat_eq_shift_and rfl w0 8,
    extractLsb'_toNat_eq_shift_and rfl w0 12, (sensorId w0).isLt, (fiberId w0).isLt, (channelId w0).isLt, htile⟩

/-- Settles O49: the masked word is the upper half of word0 and the sentinel, and both replacements of the id bits keep that
half. -/
theorem wavelengthMaskLaw : Obligations.WavelengthMaskLaw := by
  intro w0 w1 x
  exact ⟨(wavelength_congr (upperHalf_replace_ids w0 x) w1).symm, (wavelength_congr (upperHalf_set_ids w0) w1).symm,
    fun _ hupper => wavelength_congr hupper w1⟩

end Sys2Proof.Machine
end

section
/-!
The frame orchestrator (44_frame_orchestrator.md): the end of the stream inside a frame (R171), the count of a payload's
elements (R164), and the transitions of PHASE (R167).
-/

namespace Sys2Proof.Machine

/-! ## The unit a live block waits for (R163) -/

/-- A block that is not Terminated waits for some unit. -/
theorem State.exists_context {s : State} (h : s.phase ≠ .terminated) : ∃ c, s.context = some c :=
  Option.ne_none_iff_exists'.mp (mt State.context_eq_none.mp h)

theorem State.context_awaitingHeader {s : State} (h : s.phase = .awaitingHeader) : s.context = some .header := by
  simp only [State.context, h]

theorem State.context_dataOffsetError {s : State} (h : s.phase = .dataOffsetError) :
    s.context = some .errorPayload := by
  simp only [State.context, h]

theorem State.context_awaitingFlag {s : State} (h : s.phase = .awaitingFlag) : s.context = some .flag := by
  simp only [State.context, h]

/-- Inside a normal payload the next unit is an element, whichever of the four it is. -/
theorem isElement_decodeUnit_of_dataOffsetNormal {s : State} {c : Context} (hp : s.phase = .dataOffsetNormal)
    (hc : s.context = some c) (u : BitVec 128) : isElement (decodeUnit c u) = true := by
  simp only [State.context, hp] at hc
  simp only [isElement, decodeUnit_context]
  cases hs : s.sweep with
  | peak => rw [hs] at hc; cases hc; rfl
  | spectral => rw [hs] at hc; cases hf : s.first <;> rw [hf] at hc <;> cases hc <;> rfl
  | timestampedPeak => rw [hs] at hc; cases hc; rfl

/-! ## One record, and the PHASE after it (R167) -/

/-- The transition of a unit that succeeds: one record of the given tag is emitted, FAULT is kept, PHASE becomes `p`. -/
def EmitsTo (tag : BitVec 3) (p : Phase) (s t : State) : Prop :=
  (∃ r, t.output = s.output ++ [r] ∧ r.tag = tag) ∧ t.fault = s.fault ∧ t.phase = p

/-- `out_tag` of the record that an element of a context becomes (R74). -/
def elementTag : Context → BitVec 3
  | .peak => 1
  | .tspk => 2
  | .sinfo => 3
  | _ => 4

/-- An element's operation emits the element's record, touches neither REM nor FAULT, and ends with ElementDone
(R110 to R113). -/
theorem exec_eq_elementDone {i : Instr} (hi : isElement i = true) (s : State) :
    ∃ u : State, exec i s = .next u.elementDone ∧ u.rem = s.rem ∧ u.fault = s.fault ∧
      ∃ r, u.output = s.output ++ [r] ∧ r.tag = elementTag i.context := by
  cases i with
  | peak w0 w1 => exact ⟨_, rfl, rfl, rfl, _, rfl, rfl⟩
  | tspk w0 w1 w2 => exact ⟨_, rfl, rfl, rfl, _, rfl, rfl⟩
  | sinfo w0 n => exact ⟨_, rfl, rfl, rfl, _, rfl, rfl⟩
  | ssamp a1 a2 a3 a4 => exact ⟨_, rfl, rfl, rfl, _, rfl, rfl⟩
  | _ => cases hi

theorem exec_element_emitsTo {i : Instr} (hi : isElement i = true) {s t : State} (h : exec i s = .next t) :
    EmitsTo (elementTag i.context) (if s.rem = 1#32 then .awaitingFlag else .dataOffsetNormal) s t := by
  obtain ⟨u, hu, hrem, hfault, hrec⟩ := exec_eq_elementDone hi s
  obtain rfl : u.elementDone = t := Host.Outcome.next.inj (hu.symm.trans h)
  rw [← hrem, State.elementDone_eq]
  exact ⟨hrec, hfault, rfl⟩

/-- The three error rows have one meaning, that of the error id. -/
theorem exec_errorInstr (e d : U32) (s : State) : exec (errorInstr e d) s = errorPayload e d s := by
  unfold errorInstr
  split_ifs with h500 h501
  · rw [h500]; rfl
  · rw [h501]; rfl
  · rfl

theorem exec_errorInstr_emitsTo {e d : U32} {s t : State} (h : exec (errorInstr e d) s = .next t) :
    EmitsTo 5 .awaitingFlag s t := by
  rw [exec_errorInstr] at h
  cases h
  exact ⟨⟨_, rfl, rfl⟩, rfl, rfl⟩

theorem exec_flag_emitsTo {sc r : U32} {s t : State} (h : exec (.flag sc r) s = .next t) :
    EmitsTo 6 (if s.stopAfterErrorFrame = true ∧ s.errFrame = true then .terminated else .awaitingHeader) s t := by
  rw [flagRecordAndNextPhase] at h
  cases h
  exact ⟨⟨_, rfl, rfl⟩, rfl, rfl⟩

/-! ## The header's transition (R100, R101, R165) -/

theorem eq_raiseFault_of_exec_headerInstr {h : Header} (hst : 2 < h.sweepType.toNat) {s t : State}
    (ht : exec (headerInstr h) s = .next t) : t = s.raiseFault .unknownSweepType h.sweepType := by
  rw [exec_headerInstr_of_illegal hst] at ht
  cases ht
  rfl

theorem exists_sweepType_of_legal {v : BitVec 3} (hv : ¬2 < v.toNat) :
    ∃ st : SweepType, v = (SweepType.code st).setWidth 3 := by
  have hcases : v = 0#3 ∨ v = 1#3 ∨ v = 2#3 := by bv_omega
  rcases hcases with rfl | rfl | rfl
  · exact ⟨.peak, rfl⟩
  · exact ⟨.spectral, rfl⟩
  · exact ⟨.timestampedPeak, rfl⟩

/-- The row of a legal sweep type is the normal or the error header of that type, by the data offset alone (R73). -/
theorem exec_headerInstr_of_legal {h : Header} {st : SweepType} (hst : h.sweepType = (SweepType.code st).setWidth 3)
    (s : State) :
    exec (headerInstr h) s =
      if h.dataOffset = 16#16 then normalHeader st h.packetCounter h.triggerMode h.dataLength h.timeStamp s
      else errorHeader st h.packetCounter h.triggerMode h.dataOffset h.dataLength h.timeStamp s := by
  unfold headerInstr
  rw [hst]
  by_cases hoff : h.dataOffset = 16#16
  · simp only [if_pos hoff]
    cases st <;> rfl
  · simp only [if_neg hoff]
    cases st <;> rfl

/-- A frame has no element exactly when its length is below one element's size. -/
theorem phaseAfterHeader_elementCount (st : SweepType) (len : U32) :
    phaseAfterHeader (elementCount st len) =
      if len.toNat < (elementSize st).toNat then .awaitingFlag else .dataOffsetNormal := by
  have hempty : elementCount st len = 0#32 ↔ len.toNat < (elementSize st).toNat := by
    rw [← BitVec.toNat_inj, elementCount, BitVec.toNat_udiv]
    cases st <;> simp [elementSize]
  simp only [phaseAfterHeader, hempty]

theorem elementSize_toNat_eq_ite (st : SweepType) :
    (elementSize st).toNat = if (SweepType.code st).setWidth 3 = 2#3 then 12 else 8 := by
  cases st <;> rfl

theorem exec_headerInstr_emitsTo {h : Header} (hst : ¬2 < h.sweepType.toNat) {s t : State}
    (ht : exec (headerInstr h) s = .next t) :
    EmitsTo 0
      (if h.dataOffset ≠ 16#16 then .dataOffsetError
        else if h.dataLength.toNat < (if h.sweepType = 2#3 then 12 else 8) then .awaitingFlag
        else .dataOffsetNormal) s t := by
  obtain ⟨st, hcode⟩ := exists_sweepType_of_legal hst
  rw [exec_headerInstr_of_legal hcode] at ht
  by_cases hoff : h.dataOffset = 16#16
  · rw [if_pos hoff] at ht
    rw [if_neg (not_not_intro hoff), hcode, ← elementSize_toNat_eq_ite, ← phaseAfterHeader_elementCount]
    cases ht
    exact ⟨⟨_, rfl, rfl⟩, rfl, rfl⟩
  · rw [if_neg hoff] at ht
    rw [if_pos hoff]
    cases ht
    exact ⟨⟨_, rfl, rfl⟩, rfl, rfl⟩

/-! ## The obligations -/

/-- Settles O12: a live block waits for some unit, so it takes the token, and its End step is off the frame boundary. -/
theorem endInsideFrameIsShortRead : Obligations.EndInsideFrameIsShortRead := by
  intro s rest hr hi hlive hinside
  obtain ⟨c, hc⟩ := State.exists_context hlive
  rw [step_token hr hc hi]
  exact endStep_inside (s := s.takeToken rest) (not_and_or.mpr hinside)

/-- Settles O25, by induction on the elements: one ElementDone takes 1 from REM, and the last one decides PHASE. -/
theorem elementDoneCountsDown : Obligations.ElementDoneCountsDown := by
  intro is
  induction is with
  | nil => intro s hne; exact absurd rfl hne
  | cons i is ih =>
    intro s _ hall hlen
    obtain ⟨hi, hrest⟩ := List.forall_mem_cons.mp hall
    obtain ⟨u, hu, hrem, -, -⟩ := exec_eq_elementDone hi s
    rw [List.length_cons] at hlen
    have hdown : (u.rem - 1#32).toNat = s.rem.toNat - 1 := by rw [hrem]; bv_omega
    simp only [execAll, hu, List.length_cons]
    by_cases hnil : is = []
    · subst hnil
      have hlast : u.rem = 1#32 ↔ 1 = s.rem.toNat := by rw [hrem]; bv_omega
      refine ⟨u.elementDone, rfl, rfl, hdown, ?_⟩
      simp only [State.elementDone_eq, hlast, List.length_nil, Nat.zero_add]
    · have hfits : is.length ≤ u.elementDone.rem.toNat := by rw [State.elementDone_rem, hdown]; omega
      obtain ⟨t, ht, hcnt, hremt, hphase⟩ := ih u.elementDone hnil hrest hfits
      rw [State.elementDone_rem, hdown] at hremt hphase
      have hused : is.length = s.rem.toNat - 1 ↔ is.length + 1 = s.rem.toNat := by omega
      exact ⟨t, ht, hcnt, by omega, by simpa only [hused] using hphase⟩

/-- Settles O31: what a step can do is `step_cases`; for the byte that completes a unit, PHASE names the unit, and the
unit's operation has the transition of R167. -/
theorem phaseTransitions : Obligations.PhaseTransitions := by
  refine ⟨fun s t hr hp h => ?_, fun s t tok c hr hc hi _ h => ?_⟩
  · rw [step_terminated hr (State.context_eq_none.mpr hp)] at h
    cases h
  rcases step_cases h with ⟨hrst, -⟩ | ⟨-, c', tok', hc', hi', hcase⟩
  · rw [hr] at hrst
    cases hrst
  obtain rfl : c' = c := Option.some.inj (hc'.symm.trans hc)
  obtain rfl : tok' = tok := (List.cons.inj (hi'.symm.trans hi)).1
  rcases hcase with ⟨b, rfl, hn, ht⟩ | ⟨b, rfl, hn, hx⟩ | ⟨rfl, hp, h0, ht⟩ | ⟨rfl, hin, ht⟩ | ⟨rfl, ht⟩
  · simp only [if_pos hn]
    rw [ht]
    exact ⟨rfl, rfl, rfl⟩
  · simp only [if_neg hn.not_lt]
    cases hp : s.phase with
    | awaitingHeader =>
      rw [State.context_awaitingHeader hp] at hc
      cases hc
      by_cases hst : 2 < (headerFields (unitValue (s.buf.toList.take 15 ++ [b]))).sweepType.toNat
      · have hfault := eq_raiseFault_of_exec_headerInstr hst hx
        simp only [if_pos hst]
        rw [hfault]
        exact ⟨rfl, rfl, rfl, rfl⟩
      · simp only [if_neg hst]
        exact (exec_headerInstr_emitsTo hst hx :)
    | dataOffsetNormal =>
      have hrow := exec_element_emitsTo (isElement_decodeUnit_of_dataOffsetNormal hp hc _) hx
      rw [decodeUnit_context] at hrow
      exact hrow
    | dataOffsetError =>
      rw [State.context_dataOffsetError hp] at hc
      cases hc
      exact (exec_errorInstr_emitsTo hx :)
    | awaitingFlag =>
      rw [State.context_awaitingFlag hp] at hc
      cases hc
      exact (exec_flag_emitsTo hx :)
    | terminated =>
      rw [State.context_eq_none.mpr hp] at hc
      cases hc
  · simp only [if_pos (And.intro hp h0)]
    rw [ht]
    exact ⟨rfl, rfl, rfl⟩
  · simp only [if_neg hin]
    rw [ht]
    exact ⟨rfl, rfl, rfl⟩
  · rw [ht]
    exact ⟨rfl, rfl, rfl⟩

end Sys2Proof.Machine
end

section
/-!
The exceptions (60_exceptions.md): what can be written into FAULT (R25, R206), and the reserved code that never is (R203).
-/

namespace Sys2Proof.Machine

/-! ## What writes FAULT (R206) -/

/-- A unit operation keeps FAULT, but for the two illegal header rows (R101, R202). -/
theorem fault_of_exec {i : Instr} {s t : State} (h : exec i s = .next t) :
    t.fault = s.fault ∨ t.fault = .unknownSweepType := by
  cases i with
  | hdrIll3 | hdrIll47 => cases h; exact .inr rfl
  | _ => cases h; exact .inl rfl

/-- A step keeps FAULT, clears it in reset, or writes one of the three codes that a rule raises (R101, R171, R172, R220). -/
theorem fault_of_step {s t : State} (h : step s = .next t) :
    t.fault = s.fault ∨
      t.fault = .noFault ∨ t.fault = .unknownSweepType ∨ t.fault = .ioShortRead ∨ t.fault = .ioFailure := by
  rcases step_cases h with ⟨-, ht⟩ | ⟨-, c, tok, -, -, hcase⟩
  · exact .inr (.inl (by rw [ht, State.resetBlock_fault]))
  rcases hcase with ⟨b, -, -, ht⟩ | ⟨b, -, -, hx⟩ | ⟨-, -, -, ht⟩ | ⟨-, -, ht⟩ | ⟨-, ht⟩
  · exact .inl (by rw [ht, State.storeByte_fault, State.takeToken_fault])
  · exact (fault_of_exec hx).imp_right fun hst => .inr (.inl hst)
  · exact .inl (by rw [ht, State.terminate_fault, State.takeToken_fault])
  · exact .inr (.inr (.inr (.inl (by rw [ht, State.raiseFault_fault]))))
  · exact .inr (.inr (.inr (.inr (by rw [ht, State.raiseFault_fault]))))

/-! ## The obligation -/

/-- Settles O30: the reserved code is none of those a step writes, and a header of a legal sweep type whose data offset is
not 16 has the error header as its meaning. -/
theorem unexpectedDataOffsetNeverRaised : Obligations.UnexpectedDataOffsetNeverRaised := by
  refine ⟨fun s t h hs => ?_, fun h s hst hoff => ?_⟩
  · rcases fault_of_step h with hkept | hcode | hcode | hcode | hcode
    · rw [hkept]
      exact hs
    all_goals
      rw [hcode]
      decide
  · obtain ⟨st, hcode⟩ := exists_sweepType_of_legal hst.not_gt
    rw [exec_headerInstr_of_legal hcode, if_neg hoff]
    obtain ⟨t, ht, -, -, -, -, herr, hphase, hfault, -⟩ :=
      errorHeader_spec st h.packetCounter h.triggerMode h.dataOffset h.dataLength h.timeStamp s
    exact ⟨t, ht, hphase, herr, hfault⟩

end Sys2Proof.Machine
end

section
/-!
What a step keeps (10_state.md section 4, 20_memory.md, 44_frame_orchestrator.md): the invariant R27, the parameters R49, the
order of the two streams R41 and R46, and the five ways into Terminated R175.
-/

namespace Sys2Proof.Machine

/-! ## What a unit operation keeps (R46, R202) -/

theorem unitFrame_of_exec {i : Instr} {s t : State} (h : exec i s = .next t) : UnitFrame s t := by
  obtain ⟨u, hu, hframe⟩ := exec_next_unitFrame i s
  obtain rfl : u = t := Host.Outcome.next.inj (hu.symm.trans h)
  exact hframe

/-- A record is emitted only by an operation that raises no fault (R206). -/
theorem output_of_exec {i : Instr} {s t : State} (h : exec i s = .next t) :
    t.output = s.output ∨ ∃ r, t.output = s.output ++ [r] ∧ t.fault = s.fault := by
  cases i with
  | hdrIll3 | hdrIll47 => cases h; exact .inl rfl
  | _ => cases h; exact .inr ⟨_, rfl, rfl⟩

/-- What a payload or flag operation leaves alone besides `UnitFrame`: the fault and the frame's latches, but that SINFO
clears FIRST (R110 to R116, R202). -/
structure PayloadFrame (s t : State) : Prop where
  fault : t.fault = s.fault
  faultInfo : t.faultInfo = s.faultInfo
  sweep : t.sweep = s.sweep
  errFrame : t.errFrame = s.errFrame
  first : t.first = true → s.first = true

theorem payloadFrame_of_exec {i : Instr} (hi : i.context ≠ .header) {s t : State} (h : exec i s = .next t) :
    PayloadFrame s t := by
  cases i with
  | hdrIll3 | hdrIll47 | hdrPeak | hdrSpec | hdrTspk | hdrPeakE | hdrSpecE | hdrTspkE => exact absurd rfl hi
  | sinfo => cases h; exact ⟨rfl, rfl, rfl, rfl, nofun⟩
  | _ => cases h; exact ⟨rfl, rfl, rfl, rfl, id⟩

theorem rem_of_exec_element {i : Instr} (hi : isElement i = true) {s t : State} (h : exec i s = .next t) :
    t.rem = s.rem - 1#32 := by
  obtain ⟨u, hu, hrem, -, -⟩ := exec_eq_elementDone hi s
  obtain rfl : u.elementDone = t := Host.Outcome.next.inj (hu.symm.trans h)
  rw [State.elementDone_rem, hrem]

/-! ## The context names PHASE (R163) -/

theorem State.phase_ne_terminated_of_context {s : State} {c : Context} (hc : s.context = some c) :
    s.phase ≠ .terminated := fun hp => nomatch (State.context_eq_none.mpr hp).symm.trans hc

theorem State.phase_of_context_header {s : State} (hc : s.context = some .header) : s.phase = .awaitingHeader := by
  revert hc
  unfold State.context
  cases s.phase <;> cases s.sweep <;> cases s.first <;> simp

/-! ## The invariant (R27) -/

section invariant

variable {s t : State}

/-- No fault is pending in a live state of the invariant (R27 (f), R25). -/
theorem State.Inv.noFault_of_live (hs : s.Inv) (hlive : s.phase ≠ .terminated) :
    s.fault = .noFault ∧ s.faultInfo = 0#3 := by
  have hfault : s.fault = .noFault := by
    by_contra hne
    exact hlive (hs.fault_terminated hne)
  refine ⟨hfault, hs.info_other ?_⟩
  rw [hfault]
  decide

/-- The invariant where a unit has just been completed without a fault: what is left to check are the latches. -/
theorem State.Inv.of_unitDone (hcnt : t.cnt = 0#5) (hrst : t.rst = false) (hcal : CalTable.wf t.cal = true)
    (hfault : t.fault = .noFault) (hinfo : t.faultInfo = 0#3)
    (hnormal : t.phase = .dataOffsetNormal → t.rem ≠ 0#32 ∧ t.errFrame = false)
    (herror : t.phase = .dataOffsetError → t.errFrame = true) (hfirst : t.first = true → t.sweep = .spectral)
    (hrem : t.rem.toNat ≤ 0x1FFFFFFF) : t.Inv where
  cnt_le := by rw [hcnt]; decide
  cnt_lt_need c _ := by rw [hcnt]; exact c.size_pos
  cnt_terminated _ := hcnt
  normal_rem hp := (hnormal hp).1
  normal_frame hp := (hnormal hp).2
  error_frame := herror
  first_spectral := hfirst
  fault_terminated hne := absurd hfault hne
  rem_le := hrem
  info_unknown hu := nomatch hfault.symm.trans hu
  info_other _ := hinfo
  fault_reserved hu := nomatch hfault.symm.trans hu
  cal_wf := hcal
  held_in_reset hr := nomatch hrst.symm.trans hr

/-- Fault entry keeps the invariant, with FAULT_INFO as R25 asks for it (R206). -/
theorem State.Inv.raiseFault (hs : s.Inv) (hr : s.rst = false) {code : FaultCode} {info : BitVec 3}
    (hcode : code ≠ .unexpectedDataOffset) (hunknown : code = .unknownSweepType → 3 ≤ info.toNat)
    (hother : code ≠ .unknownSweepType → info = 0#3) : (s.raiseFault code info).Inv :=
  { hs with
    cnt_le := Nat.zero_le 15
    cnt_lt_need := nofun
    cnt_terminated := fun _ => rfl
    normal_rem := nofun
    normal_frame := nofun
    error_frame := nofun
    fault_terminated := fun _ => rfl
    info_unknown := hunknown
    info_other := hother
    fault_reserved := hcode
    held_in_reset := fun h => nomatch hr.symm.trans h }

theorem State.Inv.terminate (hs : s.Inv) (hr : s.rst = false) (hcnt : s.cnt = 0#5) : s.terminate.Inv :=
  { hs with
    cnt_lt_need := nofun
    cnt_terminated := fun _ => hcnt
    normal_rem := nofun
    normal_frame := nofun
    error_frame := nofun
    fault_terminated := fun _ => rfl
    held_in_reset := fun h => nomatch hr.symm.trans h }

/-- The stream is no part of the invariant while the block runs. -/
theorem State.Inv.takeToken (hs : s.Inv) (hr : s.rst = false) (rest : List Token) : (s.takeToken rest).Inv :=
  { hs with held_in_reset := fun h => nomatch hr.symm.trans h }

theorem State.storeByte_cnt_toNat {c : Context} (b : Byte) (hn : s.cnt.toNat + 1 < c.size) :
    (s.storeByte b).cnt.toNat = s.cnt.toNat + 1 := by
  have := c.size_le
  rw [State.storeByte_cnt]
  bv_omega

theorem State.Inv.storeByte (hs : s.Inv) (hr : s.rst = false) {c : Context} (hc : s.context = some c) (b : Byte)
    (hn : s.cnt.toNat + 1 < c.size) : (s.storeByte b).Inv :=
  { hs with
    cnt_le := by
      have := c.size_le
      rw [State.storeByte_cnt_toNat b hn]
      omega
    cnt_lt_need := fun c' hc' => by
      obtain rfl : c = c' := Option.some.inj (hc.symm.trans hc')
      rw [State.storeByte_cnt_toNat b hn]
      exact hn
    cnt_terminated := fun hp => absurd hp (State.phase_ne_terminated_of_context hc)
    held_in_reset := fun h => nomatch hr.symm.trans h }

/-! ### The operations of a unit -/

theorem elementCount_toNat_le (st : SweepType) (len : U32) : (elementCount st len).toNat ≤ 0x1FFFFFFF := by
  have hlen := len.isLt
  rw [elementCount, BitVec.toNat_udiv]
  cases st <;> simp only [elementSize, BitVec.toNat_ofNat, Nat.reducePow, Nat.reduceMod] <;> omega

theorem phaseAfterHeader_ne_dataOffsetError (n : U32) : phaseAfterHeader n ≠ .dataOffsetError := by
  unfold phaseAfterHeader
  split_ifs <;> decide

theorem ne_zero_of_phaseAfterHeader {n : U32} (h : phaseAfterHeader n = .dataOffsetNormal) : n ≠ 0#32 := by
  rintro rfl
  cases h

theorem eq_spectral_of_firstOf {st : SweepType} (h : firstOf st = true) : st = .spectral := by
  cases st
  · cases h
  · rfl
  · cases h

theorem State.Inv.normalHeader (hs : s.Inv) (hr : s.rst = false) (hlive : s.phase ≠ .terminated) {st : SweepType}
    {cnt : U12} {trig : BitVec 1} {len : U32} {ts : U64} (h : normalHeader st cnt trig len ts s = .next t) : t.Inv := by
  obtain ⟨u, hu, hframe, hsweep, hrem, hfirst, herr, hphase, hfault, hinfo, -⟩ := normalHeader_spec st cnt trig len ts s
  obtain rfl : u = t := Host.Outcome.next.inj (hu.symm.trans h)
  obtain ⟨hnone, hzero⟩ := hs.noFault_of_live hlive
  refine .of_unitDone hframe.cnt (hframe.rst.trans hr) (hframe.cal ▸ hs.cal_wf) (hfault.trans hnone) (hinfo.trans hzero)
    (fun hp => ⟨?_, herr⟩) (fun hp => ?_) (fun hf => ?_) (hrem ▸ elementCount_toNat_le st len)
  · rw [hrem]
    exact ne_zero_of_phaseAfterHeader (hphase.symm.trans hp)
  · exact absurd (hphase.symm.trans hp) (phaseAfterHeader_ne_dataOffsetError _)
  · rw [hsweep]
    exact eq_spectral_of_firstOf (hfirst.symm.trans hf)

theorem State.Inv.errorHeader (hs : s.Inv) (hr : s.rst = false) (hlive : s.phase ≠ .terminated) {st : SweepType}
    {cnt : U12} {trig : BitVec 1} {off : U16} {len : U32} {ts : U64}
    (h : errorHeader st cnt trig off len ts s = .next t) : t.Inv := by
  obtain ⟨u, hu, hframe, -, hrem, hfirst, herr, hphase, hfault, hinfo, -⟩ := errorHeader_spec st cnt trig off len ts s
  obtain rfl : u = t := Host.Outcome.next.inj (hu.symm.trans h)
  obtain ⟨hnone, hzero⟩ := hs.noFault_of_live hlive
  exact .of_unitDone hframe.cnt (hframe.rst.trans hr) (hframe.cal ▸ hs.cal_wf) (hfault.trans hnone) (hinfo.trans hzero)
    (fun hp => nomatch hphase.symm.trans hp) (fun _ => herr) (fun hf => nomatch hfirst.symm.trans hf)
    (by rw [hrem]; decide)

/-- A header row keeps the invariant: fault entry, the normal header or the error header (R100, R101). -/
theorem State.Inv.exec_headerInstr (hs : s.Inv) (hr : s.rst = false) (hlive : s.phase ≠ .terminated) {h : Header}
    (hx : exec (headerInstr h) s = .next t) : t.Inv := by
  by_cases hst : 2 < h.sweepType.toNat
  · rw [eq_raiseFault_of_exec_headerInstr hst hx]
    exact hs.raiseFault hr (by decide) (fun _ => hst) (fun hne => absurd rfl hne)
  · obtain ⟨st, hcode⟩ := exists_sweepType_of_legal hst
    rw [exec_headerInstr_of_legal hcode] at hx
    split_ifs at hx
    · exact hs.normalHeader hr hlive hx
    · exact hs.errorHeader hr hlive hx

/-- A payload or flag operation keeps the invariant if it leaves REM in its range and asks for an element only where one
is left. -/
theorem State.Inv.of_payload (hs : s.Inv) (hr : s.rst = false) (hlive : s.phase ≠ .terminated) {i : Instr}
    (hi : i.context ≠ .header) (hx : exec i s = .next t) (hrem : t.rem.toNat ≤ 0x1FFFFFFF)
    (hnormal : t.phase = .dataOffsetNormal → t.rem ≠ 0#32 ∧ s.errFrame = false) (herror : t.phase ≠ .dataOffsetError) :
    t.Inv := by
  have hframe := unitFrame_of_exec hx
  have hkeep := payloadFrame_of_exec hi hx
  obtain ⟨hnone, hzero⟩ := hs.noFault_of_live hlive
  exact .of_unitDone hframe.cnt (hframe.rst.trans hr) (hframe.cal ▸ hs.cal_wf) (hkeep.fault.trans hnone)
    (hkeep.faultInfo.trans hzero) (fun hp => ⟨(hnormal hp).1, hkeep.errFrame.trans (hnormal hp).2⟩)
    (fun hp => absurd hp herror) (fun hf => hkeep.sweep.trans (hs.first_spectral (hkeep.first hf))) hrem

theorem State.Inv.exec_element (hs : s.Inv) (hr : s.rst = false) (hp : s.phase = .dataOffsetNormal) {i : Instr}
    (hi : isElement i = true) (hx : exec i s = .next t) : t.Inv := by
  have hcontext : i.context ≠ .header := by
    intro hh
    simp [isElement, hh] at hi
  have hne := hs.normal_rem hp
  have hle := hs.rem_le
  have hrem := rem_of_exec_element hi hx
  obtain ⟨-, -, hphase⟩ := exec_element_emitsTo hi hx
  refine hs.of_payload hr (by rw [hp]; decide) hcontext hx (by rw [hrem]; bv_omega)
    (fun ht => ⟨?_, hs.normal_frame hp⟩) ?_
  · rw [hphase] at ht
    have hlast : s.rem ≠ 1#32 := fun h1 => by rw [if_pos h1] at ht; cases ht
    rw [hrem]
    bv_omega
  · rw [hphase]
    split_ifs <;> decide

theorem State.Inv.exec_errorInstr (hs : s.Inv) (hr : s.rst = false) (hlive : s.phase ≠ .terminated) {e d : U32}
    (hx : exec (errorInstr e d) s = .next t) : t.Inv := by
  obtain ⟨-, -, hphase⟩ := exec_errorInstr_emitsTo hx
  have hcontext : (errorInstr e d).context ≠ .header := by rw [errorInstr_context]; decide
  have hrem : t.rem = s.rem := by
    rw [Machine.exec_errorInstr] at hx
    cases hx
    rfl
  exact hs.of_payload hr hlive hcontext hx (hrem ▸ hs.rem_le) (fun ht => nomatch hphase.symm.trans ht)
    (by rw [hphase]; decide)

theorem State.Inv.exec_flag (hs : s.Inv) (hr : s.rst = false) (hlive : s.phase ≠ .terminated) {sc r : U32}
    (hx : exec (.flag sc r) s = .next t) : t.Inv := by
  obtain ⟨-, -, hphase⟩ := exec_flag_emitsTo hx
  have hrem : t.rem = s.rem := by
    cases hx
    rfl
  refine hs.of_payload (i := .flag sc r) hr hlive (show Context.flag ≠ .header by decide) hx (hrem ▸ hs.rem_le) (fun ht => ?_) ?_
  · rw [hphase] at ht
    split_ifs at ht
  · rw [hphase]
    split_ifs <;> decide

/-- The unit that PHASE asks for keeps the invariant. -/
theorem State.Inv.exec_decodeUnit (hs : s.Inv) (hr : s.rst = false) {c : Context} (hc : s.context = some c)
    {u : BitVec 128} (hx : exec (decodeUnit c u) s = .next t) : t.Inv := by
  have hlive := State.phase_ne_terminated_of_context hc
  cases hp : s.phase with
  | awaitingHeader =>
    rw [State.context_awaitingHeader hp] at hc
    cases hc
    exact hs.exec_headerInstr hr hlive hx
  | dataOffsetNormal => exact hs.exec_element hr hp (isElement_decodeUnit_of_dataOffsetNormal hp hc u) hx
  | dataOffsetError =>
    rw [State.context_dataOffsetError hp] at hc
    cases hc
    exact hs.exec_errorInstr hr hlive hx
  | awaitingFlag =>
    rw [State.context_awaitingFlag hp] at hc
    cases hc
    exact hs.exec_flag hr hlive hx
  | terminated => exact absurd hp hlive

end invariant

/-- Settles O4: each of the things a step can do keeps the invariant; in reset the step is the state itself. -/
theorem stepKeepsInvariant : Obligations.StepKeepsInvariant := by
  intro s t hs h
  rcases step_cases h with ⟨hr, ht⟩ | ⟨hr, c, tok, hc, -, hcase⟩
  · rw [ht, hs.held_in_reset hr]
    exact hs
  have htake : (s.takeToken t.input).Inv := hs.takeToken hr t.input
  rcases hcase with ⟨b, -, hn, ht⟩ | ⟨b, -, -, hx⟩ | ⟨-, -, h0, ht⟩ | ⟨-, -, ht⟩ | ⟨-, ht⟩
  · rw [ht]
    exact htake.storeByte hr hc b hn
  · exact htake.exec_decodeUnit hr hc hx
  · rw [ht]
    exact htake.terminate hr h0
  · rw [ht]
    exact htake.raiseFault hr (by decide) nofun (fun _ => rfl)
  · rw [ht]
    exact htake.raiseFault hr (by decide) nofun (fun _ => rfl)

/-- Settles O3: the reset state has no unit in assembly, no frame and no fault. -/
theorem invariantAtReset : Obligations.InvariantAtReset :=
  .of_unitDone rfl rfl rfl rfl rfl nofun nofun nofun (by decide)

end Sys2Proof.Machine
end

section
/-!
What a step does with its token (20_memory.md sections 1 to 3, 44_frame_orchestrator.md sections 1, 4 and 5): the totality of
live steps (R11), the byte step (R162), the ends of a run (R170 to R175), reset (R220 to R222) and the output port (R47).
-/

namespace Sys2Proof.Machine

/-! ## A live state takes the offered token (R11, R44) -/

theorem State.inReady_eq_true {s : State} : s.inReady = true ↔ s.rst = false ∧ s.phase ≠ .terminated := by
  simp [State.inReady]

/-- Every token has a next state while CNT is below the unit's length, and a step touches no further token. -/
theorem exists_next_of_tokenStep {s : State} {c : Context} (hcnt : s.cnt.toNat < c.size) (tok : Token) :
    ∃ t, tokenStep c tok s = .next t ∧ t.input = s.input := by
  cases tok with
  | byte b =>
    rcases Nat.lt_or_eq_of_le (show s.cnt.toNat + 1 ≤ c.size from hcnt) with hn | hn
    · exact ⟨_, byteStep_lt b hn, rfl⟩
    · obtain ⟨t, ht, hframe⟩ := exec_next_unitFrame (decodeUnit c (unitValue (s.unitBytes c.size b))) s
      exact ⟨t, (byteStep_eq b hn).trans ht, hframe.input⟩
  | endOfStream =>
    by_cases hb : s.phase = .awaitingHeader ∧ s.cnt = 0#5
    · exact ⟨_, endStep_boundary hb, rfl⟩
    · exact ⟨_, endStep_inside hb, rfl⟩
  | ioError => exact ⟨_, rfl, rfl⟩

/-- Settles O5: a state of the invariant has CNT below the length of the unit it waits for, so any token has a next state. -/
theorem stepTotalOnLiveStates : Obligations.StepTotalOnLiveStates := by
  intro s hs hready hinput
  obtain ⟨hr, hlive⟩ := State.inReady_eq_true.mp hready
  obtain ⟨c, hc⟩ := State.exists_context hlive
  obtain ⟨tok, rest, hi⟩ := List.exists_cons_of_ne_nil hinput
  obtain ⟨t, ht, hrest⟩ := exists_next_of_tokenStep (s := s.takeToken rest) (hs.cnt_lt_need c hc) tok
  refine ⟨tok, t, ?_, (step_token hr hc hi).trans ht⟩
  rw [hi, hrest, State.takeToken_input]

/-- Settles O6: outside reset `step_cases` says that the token before the rest is the one consumed. -/
theorem oneTokenPerStep : Obligations.OneTokenPerStep := by
  intro s t hr h
  rcases step_cases h with ⟨hrst, -⟩ | ⟨-, c, tok, -, hi, -⟩
  · exact nomatch hr.symm.trans hrst
  · exact ⟨tok, hi⟩

/-! ## The byte step (R162) -/

theorem getElem?_setIfInBounds_self {v : Vector Byte 16} {k : Nat} (hk : k < 16) (b : Byte) :
    (v.setIfInBounds k b)[k]? = some b := by
  rw [Vector.getElem?_setIfInBounds_self, if_pos hk]

/-- Settles O7: the bytes in BUF and the token are the unit's bytes, and decoding them is `decodeUnit` of their value. -/
theorem stepRunsDecodedUnit : Obligations.StepRunsDecodedUnit := by
  intro s b rest c i hr hi hc hn hdec
  rw [step_completes hr hc hi hn]
  exact congrArg (exec · (s.takeToken rest)) (decode_eq_ok.mp hdec).2

/-- Settles O8: the step is `storeByte`, and CNT, below 16, neither leaves BUF nor wraps. -/
theorem byteStepBuffers : Obligations.ByteStepBuffers := by
  intro s b rest c hr hi hc hn
  have hk : s.cnt.toNat < 16 := by
    have := c.size_le
    omega
  refine ⟨_, step_buffers hr hc hi hn, State.storeByte_cnt_toNat (s := s.takeToken rest) b hn,
    getElem?_setIfInBounds_self hk b, fun j hj => ?_, rfl⟩
  exact Vector.getElem?_setIfInBounds_ne hj.symm

/-! ## The ends of a run (R160, R170, R172, R175) -/

/-- Settles O11: the End step at a frame boundary is `terminate`. -/
theorem endAtFrameBoundaryIsClean : Obligations.EndAtFrameBoundaryIsClean := by
  intro s rest hr hi hp h0
  rw [step_token hr (State.context_awaitingHeader hp) hi]
  exact endStep_boundary (s := s.takeToken rest) ⟨hp, h0⟩

/-- Settles O13: a live block takes the token, and the Err step looks at nothing else. -/
theorem ioErrorFaultsEverywhere : Obligations.IoErrorFaultsEverywhere := by
  intro s rest hr hi hlive
  obtain ⟨c, hc⟩ := State.exists_context hlive
  exact step_token hr hc hi

/-- Settles O14: Terminated selects no unit, and any other phase selects one but has no token to take. -/
theorem noStepWithoutToken : Obligations.NoStepWithoutToken := by
  intro s hr
  refine ⟨fun hp => step_terminated hr (State.context_eq_none.mpr hp), fun hlive hi => ?_⟩
  obtain ⟨c, hc⟩ := State.exists_context hlive
  exact step_noToken hr hc hi

/-- Sixteen bytes with an illegal sweep type are the format error of that value (R103). -/
theorem decodeHeader_of_illegal {bytes : List Byte} (hlen : bytes.length = 16)
    (hst : 2 < (headerFields (unitValue bytes)).sweepType.toNat) :
    decodeHeader bytes = .error (.unknownSweepType (headerFields (unitValue bytes)).sweepType) := by
  unfold decodeHeader
  rw [if_neg (by omega), if_neg (by omega)]
  exact if_pos hst

/-- A unit operation ends the run in two places only: at a header of an illegal sweep type, and at the flag of an error
frame where the parameter asks for it (R101, R168). -/
theorem terminated_of_exec_decodeUnit {s t : State} {c : Context} (hc : s.context = some c) {u : BitVec 128}
    (hx : exec (decodeUnit c u) s = .next t) (ht : t.phase = .terminated) :
    (c = .header ∧ 2 < (headerFields u).sweepType.toNat ∧
      t = s.raiseFault .unknownSweepType (headerFields u).sweepType) ∨
    (c = .flag ∧ s.phase = .awaitingFlag ∧ s.stopAfterErrorFrame = true ∧ s.errFrame = true ∧ t.fault = s.fault) := by
  cases hp : s.phase with
  | awaitingHeader =>
    rw [State.context_awaitingHeader hp] at hc
    cases hc
    by_cases hst : 2 < (headerFields u).sweepType.toNat
    · exact .inl ⟨rfl, hst, eq_raiseFault_of_exec_headerInstr hst hx⟩
    · obtain ⟨-, -, hphase⟩ := exec_headerInstr_emitsTo hst hx
      rw [hphase] at ht
      split_ifs at ht
  | dataOffsetNormal =>
    obtain ⟨-, -, hphase⟩ := exec_element_emitsTo (isElement_decodeUnit_of_dataOffsetNormal hp hc u) hx
    rw [hphase] at ht
    split_ifs at ht
  | dataOffsetError =>
    rw [State.context_dataOffsetError hp] at hc
    cases hc
    obtain ⟨-, -, hphase⟩ := exec_errorInstr_emitsTo hx
    exact nomatch hphase.symm.trans ht
  | awaitingFlag =>
    rw [State.context_awaitingFlag hp] at hc
    cases hc
    obtain ⟨-, hfault, hphase⟩ := exec_flag_emitsTo hx
    rw [hphase] at ht
    split_ifs at ht with hstop
    exact .inr ⟨rfl, rfl, hstop.1, hstop.2, hfault⟩
  | terminated => exact absurd hp (State.phase_ne_terminated_of_context hc)

/-- Settles O32: of the things a step can do, buffering keeps PHASE, and the others that end in Terminated are the five. -/
theorem fiveWaysToTerminate : Obligations.FiveWaysToTerminate := by
  intro s t hr h ht
  rcases step_cases h with ⟨hrst, -⟩ | ⟨-, c, tok, hc, hi, hcase⟩
  · exact nomatch hr.symm.trans hrst
  rcases hcase with ⟨b, -, -, hbuf⟩ | ⟨b, rfl, hn, hx⟩ | ⟨rfl, hp, h0, hend⟩ | ⟨rfl, hin, hend⟩ | ⟨rfl, herr⟩
  · rw [hbuf] at ht
    exact absurd ht (State.phase_ne_terminated_of_context hc)
  · rcases terminated_of_exec_decodeUnit (s := s.takeToken t.input) hc hx ht with
      ⟨rfl, hst, hfault⟩ | ⟨rfl, hp, hstop, herr, hfault⟩
    · refine .inr (.inr (.inr (.inr ⟨b, t.input, hi, State.phase_of_context_header hc, ?_, ?_, ?_⟩)))
      · have hn : s.cnt.toNat + 1 = 16 := hn
        bv_omega
      · rw [hfault, State.raiseFault_fault]
      · rw [hfault, State.raiseFault_faultInfo]
        exact decodeHeader_of_illegal (State.unitBytes_length s (n := 16) (by decide) (by decide) b) hst
    · refine .inr (.inl ⟨b, t.input, hi, hp, ?_, hstop, herr, hfault⟩)
      have hn : s.cnt.toNat + 1 = 8 := hn
      bv_omega
  · exact .inl ⟨t.input, hi, hp, h0, by rw [hend]; rfl⟩
  · exact .inr (.inr (.inl ⟨t.input, hi, not_and_or.mp hin, by rw [hend]; rfl, by rw [hend]; rfl⟩))
  · exact .inr (.inr (.inr (.inl ⟨t.input, hi, by rw [herr]; rfl, by rw [herr]; rfl⟩)))

/-! ## The output, the port and the parameters (R46, R47, R49) -/

/-- Settles O33: only a unit operation emits, it emits at most one record, and it runs at the unit's last byte. -/
theorem recordsAppendOnly : Obligations.RecordsAppendOnly := by
  intro s t hr h
  rcases step_cases h with ⟨hrst, -⟩ | ⟨-, c, tok, hc, hi, hcase⟩
  · exact nomatch hr.symm.trans hrst
  rcases hcase with ⟨b, -, -, ht⟩ | ⟨b, rfl, hn, hx⟩ | ⟨-, -, -, ht⟩ | ⟨-, -, ht⟩ | ⟨-, ht⟩
  · exact .inl (by rw [ht]; rfl)
  · exact (output_of_exec hx).imp_right fun ⟨r, hout, hfault⟩ =>
      ⟨r, b, c, hout, hi, hc, hn, (unitFrame_of_exec hx).cnt, hfault⟩
  · exact .inl (by rw [ht]; rfl)
  · exact .inl (by rw [ht]; rfl)
  · exact .inl (by rw [ht]; rfl)

/-- Settles O34: neither reset nor fault entry nor a unit operation writes CAL, STOP_AFTER_ERROR_FRAME or `rst`. -/
theorem parametersNeverChange : Obligations.ParametersNeverChange := by
  intro s t h
  rcases step_cases h with ⟨-, ht⟩ | ⟨-, c, tok, -, -, hcase⟩
  · rw [ht]
    exact ⟨rfl, rfl, rfl⟩
  rcases hcase with ⟨b, -, -, ht⟩ | ⟨b, -, -, hx⟩ | ⟨-, -, -, ht⟩ | ⟨-, -, ht⟩ | ⟨-, ht⟩
  · rw [ht]; exact ⟨rfl, rfl, rfl⟩
  · exact ⟨(unitFrame_of_exec hx).cal, (unitFrame_of_exec hx).stop, (unitFrame_of_exec hx).rst⟩
  · rw [ht]; exact ⟨rfl, rfl, rfl⟩
  · rw [ht]; exact ⟨rfl, rfl, rfl⟩
  · rw [ht]; exact ⟨rfl, rfl, rfl⟩

theorem emittedRecord_of_silent {s t : State} (h : t.output = s.output) : emittedRecord s t = none := by
  rw [emittedRecord, h, List.getElem?_eq_none (Nat.le_refl _)]

theorem emittedRecord_of_append {s t : State} {r : Record} (h : t.output = s.output ++ [r]) :
    emittedRecord s t = some r := by
  rw [emittedRecord, h, List.getElem?_concat_length]

/-- Settles O60: the port reads the record past the old end of the output, and a step appends at most one. -/
theorem outputPortShowsStep : Obligations.OutputPortShowsStep := by
  intro s t hr h p
  refine ⟨?_, rfl, rfl, beq_iff_eq⟩
  rcases recordsAppendOnly s t hr h with hout | ⟨r, b, c, hout, -⟩
  · simp only [p, outPort, emittedRecord_of_silent hout]
    exact .inl ⟨rfl, hout, rfl, rfl⟩
  · simp only [p, outPort, emittedRecord_of_append hout]
    exact .inr ⟨r, rfl, hout, rfl, rfl⟩

/-- Settles O29: an operation of a context other than the header's leaves FAULT and FAULT_INFO alone. -/
theorem payloadAndFlagNeverFault : Obligations.PayloadAndFlagNeverFault := by
  intro i s hi
  obtain ⟨t, ht, -⟩ := exec_next_unitFrame i s
  exact ⟨t, ht, (payloadFrame_of_exec hi ht).fault, (payloadFrame_of_exec hi ht).faultInfo⟩

/-! ## Reset (R31, R220 to R222) -/

/-- Settles O1: the reset state written out. -/
theorem resetLeavesSpecValues : Obligations.ResetLeavesSpecValues :=
  ⟨rfl, rfl, rfl, rfl, rfl, rfl, rfl, rfl, rfl, rfl, rfl, rfl⟩

theorem State.driveRst_of_reset {s : State} {level : Bool} (h : level = true ∨ s.rst = true) :
    s.driveRst level = { s.resetBlock with rst := level } := by
  rcases h with rfl | h
  · exact State.driveRst_true s
  · exact State.driveRst_of_held h level

/-- A step in reset answers the reset state, which is what driving the level high gives. -/
theorem step_eq_driveRst_true {s : State} (hr : s.rst = true) : step s = .next (s.driveRst true) := by
  rw [step_reset hr, State.driveRst_true]
  exact congrArg (fun level => Host.Outcome.next { s.resetBlock with rst := level }) hr

/-- Settles O2: driving the level gives `resetBlock` with that level, and holding the reset state again changes nothing. -/
theorem resetHeldWhileAsserted : Obligations.ResetHeldWhileAsserted := by
  refine ⟨fun s level h => ?_, fun s => State.driveRst_false_of_running, fun s => step_eq_driveRst_true,
    fun s hs hr => ?_⟩
  · rw [State.driveRst_of_reset h]
    refine ⟨rfl, rfl, rfl, rfl, rfl, rfl, rfl, rfl, rfl, rfl, rfl, rfl, rfl, rfl, ?_⟩
    rintro rfl
    exact ⟨step_reset rfl, rfl⟩
  · rw [step_reset hr, hs.held_in_reset hr]

end Sys2Proof.Machine
end

section
/-!
The encoding (30_encoding.md): decoding and encoding undo each other (R63 to R73), and the fields of every unit are
little-endian readings of its bytes (R50).
-/

namespace Sys2Proof

/-! ## Decoding an encoded unit (R63 to R71) -/

/-- The unit of a context fits the context's bytes: what lies above is zero. -/
theorem encodeUnit_toNat_lt (i : Instr) : (encodeUnit i).toNat < 256 ^ i.context.size := by
  have wide (w : Nat) (x : BitVec w) (hw : w ≤ 128) : (x.setWidth 128).toNat < 2 ^ w := by
    rw [BitVec.toNat_setWidth_of_le hw]
    exact x.isLt
  cases i with
  | hdrIll3 | hdrIll47 | hdrPeak | hdrSpec | hdrTspk | hdrPeakE | hdrSpecE | hdrTspkE => exact BitVec.isLt _
  | tspk => exact wide 96 _ (by decide)
  | _ => exact wide 64 _ (by decide)

theorem unitValue_encode (i : Instr) : unitValue (encode i) = encodeUnit i :=
  unitValue_bytesOf (encodeUnit_toNat_lt i)

theorem headerInstr_eq_hdrIll47 {h : Header} (h2 : h.sweepType.getLsbD 2 = true) :
    headerInstr h =
      .hdrIll47 h.packetCounter h.sweepType h.triggerMode h.dataOffset h.dataLength h.timeStamp := by
  have h3 : h.sweepType ≠ 3#3 := by
    intro h3
    rw [h3] at h2
    cases h2
  rw [headerInstr, if_neg h3, if_pos h2]

/-- Decoding the value of a well-formed instruction gives it back. -/
theorem decodeUnit_encodeUnit {i : Instr} (hi : i.wellFormed = true) : decodeUnit i.context (encodeUnit i) = i := by
  cases i with
  | hdrIll3 | hdrPeak | hdrSpec | hdrTspk =>
    exact (congrArg headerInstr (headerFields_headerUnit ..)).trans (by simp [headerInstr])
  | hdrIll47 =>
    exact (congrArg headerInstr (headerFields_headerUnit ..)).trans (headerInstr_eq_hdrIll47 hi)
  | hdrPeakE cnt trig off len ts | hdrSpecE cnt trig off len ts | hdrTspkE cnt trig off len ts =>
    refine (congrArg headerInstr (headerFields_headerUnit ..)).trans ?_
    have hoff : off ≠ 16#16 := bne_iff_ne.mp hi
    simp only [headerInstr, if_neg hoff]
    rfl
  | tspk w0 w1 w2 =>
    simp (disch := decide) only [decodeUnit, encodeUnit, Instr.context, BitVec.extractLsb'_setWidth_of_le,
      BitVec.extractLsb'_append_eq_of_le, BitVec.extractLsb'_append_eq_of_add_le, Nat.reduceSub,
      BitVec.extractLsb'_eq_self]
  | ssamp a1 a2 a3 a4 =>
    simp (disch := decide) only [decodeUnit, encodeUnit, Instr.context, BitVec.extractLsb'_setWidth_of_le,
      BitVec.extractLsb'_append_eq_of_le, BitVec.extractLsb'_append_eq_of_add_le, Nat.reduceSub,
      BitVec.extractLsb'_eq_self]
  | peak | sinfo | flag => simp only [decodeUnit, encodeUnit, Instr.context, wordsUnit_low, wordsUnit_high]
  | errMissing | errMulti =>
    simp only [decodeUnit, encodeUnit, Instr.context, wordsUnit_low, wordsUnit_high]
    rfl
  | errInternal e d =>
    obtain ⟨h500, h501⟩ : e ≠ 500#32 ∧ e ≠ 501#32 := by
      simpa only [Instr.wellFormed, Bool.and_eq_true, bne_iff_ne] using hi
    simp only [decodeUnit, encodeUnit, Instr.context, wordsUnit_low, wordsUnit_high, errorInstr, if_neg h500,
      if_neg h501]

/-- Settles O40: the unit value of the encoding is the value encoded, and its fields are the operands. -/
theorem decodeOfEncode : Obligations.DecodeOfEncode := by
  intro i hi
  exact decode_eq_ok.mpr ⟨encode_length i, (congrArg _ (unitValue_encode i)).trans (decodeUnit_encodeUnit hi)⟩

/-! ## Encoding a decoded unit -/

/-- Three bits that are neither 3 nor 4 to 7 nor 0 nor 1 are 2. -/
theorem sweepType_eq_two :
    ∀ st : BitVec 3, st ≠ 3#3 → st.getLsbD 2 ≠ true → st ≠ 0#3 → st ≠ 1#3 → st = 2#3 := by decide

/-- The row the decoder picks for a header encodes all six fields, those that the row fixes too. -/
theorem encodeUnit_headerInstr (h : Header) :
    encodeUnit (headerInstr h) =
      headerUnit h.packetCounter h.sweepType h.triggerMode h.dataOffset h.dataLength h.timeStamp := by
  unfold headerInstr
  split_ifs with h3 h47 hoff h0 h1 h0 h1
  · simp only [encodeUnit, h3]
  · rfl
  · simp only [encodeUnit, h0, hoff]
  · simp only [encodeUnit, h1, hoff]
  · simp only [encodeUnit, sweepType_eq_two _ h3 h47 h0 h1, hoff]
  · simp only [encodeUnit, h0]
  · simp only [encodeUnit, h1]
  · simp only [encodeUnit, sweepType_eq_two _ h3 h47 h0 h1]

theorem wellFormed_headerInstr (h : Header) : (headerInstr h).wellFormed = true := by
  unfold headerInstr
  split_ifs with h3 h47 hoff h0 h1 h0 h1
  · rfl
  · exact h47
  · rfl
  · rfl
  · rfl
  · exact bne_iff_ne.mpr hoff
  · exact bne_iff_ne.mpr hoff
  · exact bne_iff_ne.mpr hoff

theorem encodeUnit_errorInstr (e d : U32) : encodeUnit (errorInstr e d) = wordsUnit e d := by
  unfold errorInstr
  split_ifs with h500 h501
  · rw [h500]; rfl
  · rw [h501]; rfl
  · rfl

theorem wellFormed_errorInstr (e d : U32) : (errorInstr e d).wellFormed = true := by
  unfold errorInstr
  split_ifs with h500 h501
  · rfl
  · rfl
  · simp only [Instr.wellFormed, bne_iff_ne.mpr h500, bne_iff_ne.mpr h501, Bool.and_self]

theorem wellFormed_decodeUnit (c : Context) (u : BitVec 128) : (decodeUnit c u).wellFormed = true := by
  cases c with
  | header => exact wellFormed_headerInstr _
  | errorPayload => exact wellFormed_errorInstr _ _
  | _ => rfl

/-- The six fields of a header leave out no bit of it (R63, R64). -/
theorem headerUnit_headerFields (u : BitVec 128) :
    headerUnit (headerFields u).packetCounter (headerFields u).sweepType (headerFields u).triggerMode
      (headerFields u).dataOffset (headerFields u).dataLength (headerFields u).timeStamp = u := by
  simp (disch := decide) only [headerUnit, headerFields,
    BitVec.extractLsb'_append_extractLsb'_eq_extractLsb']
  exact BitVec.extractLsb'_eq_self

/-- The value of a short unit is its low bits. -/
theorem setWidth_extract_of_lt {n : Nat} {u : BitVec 128} (hn : n ≤ 128) (h : u.toNat < 2 ^ n) :
    (u.extractLsb' 0 n).setWidth 128 = u := by
  apply BitVec.eq_of_toNat_eq
  rw [BitVec.toNat_setWidth_of_le hn, BitVec.extractLsb'_toNat, Nat.shiftRight_zero, Nat.mod_eq_of_lt h]

theorem wordsUnit_extract {u : BitVec 128} (h : u.toNat < 2 ^ 64) :
    wordsUnit (u.extractLsb' 0 32) (u.extractLsb' 32 32) = u := by
  rw [wordsUnit, BitVec.extractLsb'_append_extractLsb'_eq_extractLsb' (by decide), setWidth_extract_of_lt (by decide) h]

/-- Encoding what a unit decodes to gives the unit's value back, if the value has the context's length. -/
theorem encodeUnit_decodeUnit {c : Context} {u : BitVec 128} (h : u.toNat < 256 ^ c.size) :
    encodeUnit (decodeUnit c u) = u := by
  cases c with
  | header => exact (encodeUnit_headerInstr _).trans (headerUnit_headerFields u)
  | errorPayload => exact (encodeUnit_errorInstr _ _).trans (wordsUnit_extract h)
  | peak | sinfo | flag => exact wordsUnit_extract h
  | tspk =>
    simp (disch := decide) only [decodeUnit, encodeUnit,
      BitVec.extractLsb'_append_extractLsb'_eq_extractLsb']
    exact setWidth_extract_of_lt (by decide) h
  | ssamp =>
    simp (disch := decide) only [decodeUnit, encodeUnit,
      BitVec.extractLsb'_append_extractLsb'_eq_extractLsb']
    exact setWidth_extract_of_lt (by decide) h

theorem unitValue_toNat {bs : List Byte} (h : bs.length ≤ 16) : (unitValue bs).toNat = leValue bs := by
  have hlt : leValue bs < 2 ^ 128 := (leValue_lt bs).trans_le (Nat.pow_le_pow_right (by decide) h)
  rw [unitValue, BitVec.toNat_ofNat, Nat.mod_eq_of_lt hlt]

/-- Every unit of the context's length is the encoding of what it decodes to. -/
theorem encode_decodeUnit {c : Context} {bs : List Byte} (h : bs.length = c.size) :
    encode (decodeUnit c (unitValue bs)) = bs := by
  have hval : (unitValue bs).toNat = leValue bs := unitValue_toNat (h ▸ c.size_le)
  have hlt : (unitValue bs).toNat < 256 ^ c.size := by
    rw [hval, ← h]
    exact leValue_lt bs
  rw [encode, encodeUnit_decodeUnit hlt, decodeUnit_context, hval, ← h, bytesOf_leValue]

/-- Settles O41: the decoder answers its one row, which is well formed and encodes to the unit; a wrong length is rejected. -/
theorem everyUnitHasOneMeaning : Obligations.EveryUnitHasOneMeaning := by
  intro c bytes
  refine ⟨fun h => ⟨_, decode_of_length h, wellFormed_decodeUnit c _, decodeUnit_context c _, encode_decodeUnit h⟩,
    fun h => if_pos h, fun h => ?_⟩
  rw [decode, if_neg h.not_gt, if_pos h]

end Sys2Proof
end

section
/-!
The opcode table (30_encoding.md section 5, R73), the byte order of every unit (R50, R63 to R71), and the pseudo-units (R84).
-/

namespace Sys2Proof

/-! ## The rows of the table (R73) -/

/-- Two rows of one context and priority whose patterns agree where both masks look are one row. -/
theorem eq_of_compatible_rows :
    ∀ r ∈ opcodeRows, ∀ q ∈ opcodeRows, r.context = q.context → r.priority = q.priority →
      r.matchBits &&& q.mask = q.matchBits &&& r.mask → r = q := by decide

theorem OpcodeRow.applies_iff {r : OpcodeRow} {c : Context} {u : BitVec 128} :
    r.applies c u = true ↔ r.context = c ∧ u &&& r.mask = r.matchBits := by
  simp only [OpcodeRow.applies, Bool.and_eq_true, beq_iff_eq]

/-- Settles O43: a unit that both rows match makes their patterns agree where both masks look. -/
theorem tableRowsDoNotOverlap : Obligations.TableRowsDoNotOverlap := by
  intro r hr q hq hne hprio c u happ
  by_contra hq'
  obtain ⟨hrc, hru⟩ := OpcodeRow.applies_iff.mp happ
  obtain ⟨hqc, hqu⟩ := OpcodeRow.applies_iff.mp (Bool.eq_true_of_not_eq_false hq')
  refine hne (eq_of_compatible_rows r hr q hq (hrc.trans hqc.symm) hprio ?_)
  rw [← hru, ← hqu, BitVec.and_assoc, BitVec.and_assoc, BitVec.and_comm r.mask]

/-! ### The rows of a header -/

/-- The bitwise `and` of two headers is taken field by field. -/
theorem headerFields_and (u v : BitVec 128) :
    headerFields (u &&& v) =
      ⟨(headerFields u).packetCounter &&& (headerFields v).packetCounter,
        (headerFields u).sweepType &&& (headerFields v).sweepType,
        (headerFields u).triggerMode &&& (headerFields v).triggerMode,
        (headerFields u).dataOffset &&& (headerFields v).dataOffset,
        (headerFields u).dataLength &&& (headerFields v).dataLength,
        (headerFields u).timeStamp &&& (headerFields v).timeStamp⟩ := by
  simp only [headerFields, BitVec.extractLsb'_and]

/-- The value of a header whose other fields are zero: what the masks of the header rows let through. -/
def rowUnit (st : BitVec 3) (off : U16) : BitVec 128 := headerUnit 0#12 st 0#1 off 0#32 0#64

theorem headerFields_rowUnit (st : BitVec 3) (off : U16) :
    headerFields (rowUnit st off) = ⟨0#12, st, 0#1, off, 0#32, 0#64⟩ := headerFields_headerUnit ..

theorem rowUnit_inj {st st' : BitVec 3} {off off' : U16} :
    rowUnit st off = rowUnit st' off' ↔ st = st' ∧ off = off' := by
  refine ⟨fun h => ?_, fun ⟨hst, hoff⟩ => by rw [hst, hoff]⟩
  have hfields := congrArg headerFields h
  rw [headerFields_rowUnit, headerFields_rowUnit] at hfields
  exact ⟨congrArg Header.sweepType hfields, congrArg Header.dataOffset hfields⟩

theorem and_rowUnit (u : BitVec 128) (st : BitVec 3) (off : U16) :
    u &&& rowUnit st off = rowUnit ((headerFields u).sweepType &&& st) ((headerFields u).dataOffset &&& off) := by
  rw [← headerUnit_headerFields (u &&& rowUnit st off), headerFields_and, headerFields_rowUnit]
  simp only [BitVec.and_zero]
  rfl

/-- The masks and patterns of the header rows lie in the sweep type and the data offset; a row looks at the whole data
offset, and wants 16, or at none of it. -/
theorem headerRow_cases : ∀ r ∈ opcodeRows, r.context = .header →
    r.mask = rowUnit (headerFields r.mask).sweepType (headerFields r.mask).dataOffset ∧
    r.matchBits = rowUnit (headerFields r.matchBits).sweepType (headerFields r.matchBits).dataOffset ∧
    ((headerFields r.mask).dataOffset = 0#16 ∨
      (headerFields r.mask).dataOffset = BitVec.allOnes 16 ∧ (headerFields r.matchBits).dataOffset = 16#16) := by decide

/-- All that the table asks of a data offset. -/
def sixteenOrZero (off : U16) : U16 := if off = 16#16 then 16#16 else 0#16

theorem sixteenOrZero_eq_sixteen {off : U16} : sixteenOrZero off = 16#16 ↔ off = 16#16 := by
  unfold sixteenOrZero
  split_ifs with h
  · simp only [h]
  · simp only [h, iff_false]
    decide

/-- A row of the table applies to a header as it applies to the header of the same sweep type that has nothing else but
whether its data offset is 16. -/
theorem applies_header_eq (u : BitVec 128) {r : OpcodeRow} (hr : r ∈ opcodeRows) :
    r.applies .header u =
      r.applies .header (rowUnit (headerFields u).sweepType (sixteenOrZero (headerFields u).dataOffset)) := by
  rw [Bool.eq_iff_iff, OpcodeRow.applies_iff, OpcodeRow.applies_iff]
  refine and_congr_right fun hc => ?_
  obtain ⟨hmask, hmatch, hoff⟩ := headerRow_cases r hr hc
  rw [hmask, hmatch, and_rowUnit, and_rowUnit, rowUnit_inj, rowUnit_inj, headerFields_rowUnit]
  refine and_congr_right fun _ => ?_
  rcases hoff with h0 | ⟨hall, h16⟩
  · simp only [h0, BitVec.and_zero]
  · simp only [hall, h16, BitVec.and_allOnes, sixteenOrZero_eq_sixteen]

theorem mnemonic_headerInstr_eq (h : Header) :
    (headerInstr h).mnemonic = (headerInstr (headerFields (rowUnit h.sweepType (sixteenOrZero h.dataOffset)))).mnemonic := by
  simp only [headerInstr, headerFields_rowUnit, sixteenOrZero_eq_sixteen]
  split_ifs <;> rfl

/-- The row selected for each sweep type, with the data offset 16 and with another. -/
theorem selectRow_rowUnit {off : U16} (hoff : off = 16#16 ∨ off = 0#16) (st : BitVec 3) :
    (selectRow .header (rowUnit st off)).map OpcodeRow.mnemonic =
      some (headerInstr (headerFields (rowUnit st off))).mnemonic := by
  have hst : st = 0#3 ∨ st = 1#3 ∨ st = 2#3 ∨ st = 3#3 ∨ st = 4#3 ∨ st = 5#3 ∨ st = 6#3 ∨ st = 7#3 := by
    revert st
    decide
  rcases hst with rfl | rfl | rfl | rfl | rfl | rfl | rfl | rfl <;> rcases hoff with rfl | rfl <;> rfl

theorem selectRow_header (u : BitVec 128) :
    (selectRow .header u).map OpcodeRow.mnemonic = some (headerInstr (headerFields u)).mnemonic := by
  have hoff : sixteenOrZero (headerFields u).dataOffset = 16#16 ∨ sixteenOrZero (headerFields u).dataOffset = 0#16 := by
    unfold sixteenOrZero
    split_ifs
    · exact .inl rfl
    · exact .inr rfl
  rw [selectRow, List.filter_congr fun r hr => applies_header_eq u hr, ← selectRow, selectRow_rowUnit hoff,
    ← mnemonic_headerInstr_eq]

/-! ### The rows of an error payload -/

/-- An ERR row with an error id of its own looks at the whole low word. -/
theorem and_lowWord_eq_iff (u : BitVec 128) (e : U32) :
    u &&& 0xFFFFFFFF#128 = e.setWidth 128 ↔ u.extractLsb' 0 32 = e := by
  have hmask : u &&& 0xFFFFFFFF#128 = (u.extractLsb' 0 32).setWidth 128 := by
    apply BitVec.eq_of_toNat_eq
    rw [BitVec.toNat_and, BitVec.toNat_setWidth_of_le (by decide), BitVec.extractLsb'_toNat, Nat.shiftRight_zero]
    exact Nat.and_two_pow_sub_one_eq_mod u.toNat 32
  rw [hmask]
  refine ⟨fun h => ?_, fun h => by rw [h]⟩
  have hlow := congrArg (BitVec.setWidth 32) h
  rwa [BitVec.setWidth_setWidth_of_le _ (by decide), BitVec.setWidth_setWidth_of_le _ (by decide), BitVec.setWidth_eq,
    BitVec.setWidth_eq] at hlow

/-- The table of one context, then the rows of it that match. -/
theorem selectRow_eq (c : Context) (u : BitVec 128) :
    selectRow c u =
      bestRow ((opcodeRows.filter fun r => r.context == c).filter fun r => u &&& r.mask == r.matchBits) := by
  rw [List.filter_filter]
  exact congrArg (fun p => bestRow (opcodeRows.filter p)) (funext fun r => Bool.and_comm _ _)

/-- A row without a mask matches every unit. -/
theorem selectRow_of_single {c : Context} {name : String}
    (h : (opcodeRows.filter fun r => r.context == c) = [⟨name, c, 1, 0#128, 0#128⟩]) (u : BitVec 128) :
    (selectRow c u).map OpcodeRow.mnemonic = some name := by
  rw [selectRow_eq, h]
  simp [bestRow]

theorem errorRows :
    (opcodeRows.filter fun r => r.context == .errorPayload) =
      [⟨"ERR.MISSING", .errorPayload, 1, (500#32).setWidth 128, 0xFFFFFFFF#128⟩,
        ⟨"ERR.MULTI", .errorPayload, 1, (501#32).setWidth 128, 0xFFFFFFFF#128⟩,
        ⟨"ERR.INTERNAL", .errorPayload, 2, 0#128, 0#128⟩] := by decide

theorem selectRow_errorPayload (u : BitVec 128) :
    (selectRow .errorPayload u).map OpcodeRow.mnemonic =
      some (errorInstr (u.extractLsb' 0 32) (u.extractLsb' 32 32)).mnemonic := by
  rw [selectRow_eq, errorRows, errorInstr]
  simp only [List.filter_cons, List.filter_nil, beq_iff_eq, and_lowWord_eq_iff, BitVec.and_zero, if_true]
  split_ifs <;> rfl

/-- Settles O42: in a context of one row that row is selected, and in the two others the masks look at the fields that the
decoder tests. -/
theorem decoderSelectsTableRow : Obligations.DecoderSelectsTableRow := by
  intro c u
  cases c with
  | header => exact selectRow_header u
  | errorPayload => exact selectRow_errorPayload u
  | peak | tspk | sinfo | ssamp | flag => exact selectRow_of_single rfl u

/-! ## Byte order (R50) -/

/-- A field of whole bytes is the little-endian reading of its own bytes, whatever stands before and after them. -/
theorem extract_unitValue_append {start len : Nat} {w : BitVec len} (before bs after : List Byte)
    (hstart : start = 8 * before.length) (hlen : len = 8 * bs.length) (hfit : (before ++ (bs ++ after)).length ≤ 16)
    (hw : w.toNat = leValue bs) : (unitValue (before ++ (bs ++ after))).extractLsb' start len = w := by
  have hpow (n : Nat) : 2 ^ (8 * n) = 256 ^ n := by rw [Nat.pow_mul]
  apply BitVec.eq_of_toNat_eq
  rw [BitVec.extractLsb'_toNat, unitValue_toNat hfit, hw, hstart, hlen, Nat.shiftRight_eq_div_pow, hpow, hpow,
    leValue_append, leValue_append, Nat.add_mul_div_left _ _ (Nat.pow_pos (by decide)),
    Nat.div_eq_of_lt (leValue_lt before), Nat.zero_add, Nat.add_mul_mod_self_left, Nat.mod_eq_of_lt (leValue_lt bs)]

theorem append_byte_toNat {n : Nat} (x : BitVec n) (b : Byte) : (x ++ b).toNat = b.toNat + 256 * x.toNat := by
  rw [BitVec.toNat_append, ← Nat.shiftLeft_add_eq_or_of_lt b.isLt, Nat.shiftLeft_eq]
  omega

theorem append_two_toNat (b0 b1 : Byte) : (b1 ++ b0 : U16).toNat = leValue [b0, b1] := by
  rw [append_byte_toNat]
  rfl

theorem append_four_toNat (b0 b1 b2 b3 : Byte) : (b3 ++ b2 ++ b1 ++ b0 : U32).toNat = leValue [b0, b1, b2, b3] := by
  rw [append_byte_toNat, append_byte_toNat, append_two_toNat]
  rfl

theorem append_eight_toNat (b0 b1 b2 b3 b4 b5 b6 b7 : Byte) :
    (b7 ++ b6 ++ b5 ++ b4 ++ b3 ++ b2 ++ b1 ++ b0 : U64).toNat = leValue [b0, b1, b2, b3, b4, b5, b6, b7] := by
  rw [append_byte_toNat, append_byte_toNat, append_byte_toNat, append_byte_toNat, append_four_toNat]
  rfl

/-- A slice is what a shift and a mask leave, at any width. -/
theorem setWidth_shift_and_eq_extract {w len : Nat} {mask : BitVec w} (hmask : mask.toNat = 2 ^ len - 1) (x : BitVec w)
    (start : Nat) : ((x >>> start) &&& mask).setWidth len = x.extractLsb' start len := by
  apply BitVec.eq_of_toNat_eq
  rw [BitVec.toNat_setWidth, BitVec.toNat_and, BitVec.toNat_ushiftRight, hmask, Nat.and_two_pow_sub_one_eq_mod,
    Nat.mod_mod, BitVec.extractLsb'_toNat]

/-- Masking before the shift is masking after it. -/
theorem setWidth_and_shift_eq_extract {w len : Nat} {mask : BitVec w} {start : Nat}
    (hmask : (mask >>> start).toNat = 2 ^ len - 1) (x : BitVec w) :
    ((x &&& mask) >>> start).setWidth len = x.extractLsb' start len := by
  rw [BitVec.ushiftRight_and_distrib, setWidth_shift_and_eq_extract hmask]

/-- Settles O44: every field of whole bytes reads its own bytes, and the three of `info` are slices of its two bytes. -/
theorem headerBytesLittleEndian : Obligations.HeaderBytesLittleEndian := by
  intro b0 b1 b2 b3 b4 b5 b6 b7 b8 b9 b10 b11 b12 b13 b14 b15 info
  generalize hu : unitValue [b0, b1, b2, b3, b4, b5, b6, b7, b8, b9, b10, b11, b12, b13, b14, b15] = u
  have hinfo : u.extractLsb' 0 16 = info :=
    hu ▸ extract_unitValue_append [] [b0, b1] _ rfl rfl (Nat.le_refl 16) (append_two_toNat ..)
  have hoff : u.extractLsb' 16 16 = b3 ++ b2 :=
    hu ▸ extract_unitValue_append [b0, b1] [b2, b3] _ rfl rfl (Nat.le_refl 16) (append_two_toNat ..)
  have hlen : u.extractLsb' 32 32 = b7 ++ b6 ++ b5 ++ b4 :=
    hu ▸ extract_unitValue_append [b0, b1, b2, b3] [b4, b5, b6, b7] _ rfl rfl (Nat.le_refl 16) (append_four_toNat ..)
  have hts : u.extractLsb' 64 64 = b15 ++ b14 ++ b13 ++ b12 ++ b11 ++ b10 ++ b9 ++ b8 :=
    hu ▸ extract_unitValue_append [b0, b1, b2, b3, b4, b5, b6, b7] [b8, b9, b10, b11, b12, b13, b14, b15] [] rfl rfl
      (Nat.le_refl 16) (append_eight_toNat ..)
  have hslice {start len : Nat} (h : start + len ≤ 16) : u.extractLsb' start len = info.extractLsb' start len := by
    rw [← hinfo, BitVec.extractLsb'_extractLsb'_of_le h]
  have hcnt : (info &&& 0x0FFF#16).setWidth 12 = u.extractLsb' 0 12 :=
    (setWidth_shift_and_eq_extract (mask := 0x0FFF#16) rfl info 0).trans (hslice (by decide)).symm
  have hst : ((info &&& 0x7000#16) >>> 12).setWidth 3 = u.extractLsb' 12 3 :=
    (setWidth_and_shift_eq_extract rfl info).trans (hslice (by decide)).symm
  have htrig : ((info &&& 0x8000#16) >>> 15).setWidth 1 = u.extractLsb' 15 1 :=
    (setWidth_and_shift_eq_extract rfl info).trans (hslice (by decide)).symm
  rw [hcnt, hst, htrig, ← hoff, ← hlen, ← hts]
  rfl

/-- Settles O45: the decoder takes whole bytes out of the unit, and each word reads its own bytes. -/
theorem elementBytesLittleEndian : Obligations.ElementBytesLittleEndian := by
  intro b0 b1 b2 b3 b4 b5 b6 b7 b8 b9 b10 b11 w0 w1 w2 eight
  have hw0 : (unitValue eight).extractLsb' 0 32 = w0 :=
    extract_unitValue_append [] [b0, b1, b2, b3] _ rfl rfl (by decide : 8 ≤ 16) (append_four_toNat ..)
  have hw1 : (unitValue eight).extractLsb' 32 32 = w1 :=
    extract_unitValue_append [b0, b1, b2, b3] [b4, b5, b6, b7] [] rfl rfl (by decide : 8 ≤ 16) (append_four_toNat ..)
  have ha1 : (unitValue eight).extractLsb' 0 16 = b1 ++ b0 :=
    extract_unitValue_append [] [b0, b1] _ rfl rfl (by decide : 8 ≤ 16) (append_two_toNat ..)
  have ha2 : (unitValue eight).extractLsb' 16 16 = b3 ++ b2 :=
    extract_unitValue_append [b0, b1] [b2, b3] _ rfl rfl (by decide : 8 ≤ 16) (append_two_toNat ..)
  have ha3 : (unitValue eight).extractLsb' 32 16 = b5 ++ b4 :=
    extract_unitValue_append [b0, b1, b2, b3] [b4, b5] _ rfl rfl (by decide : 8 ≤ 16) (append_two_toNat ..)
  have ha4 : (unitValue eight).extractLsb' 48 16 = b7 ++ b6 :=
    extract_unitValue_append [b0, b1, b2, b3, b4, b5] [b6, b7] [] rfl rfl (by decide : 8 ≤ 16) (append_two_toNat ..)
  have ht0 : (unitValue (eight ++ [b8, b9, b10, b11])).extractLsb' 0 32 = w0 :=
    extract_unitValue_append [] [b0, b1, b2, b3] _ rfl rfl (by decide : 12 ≤ 16) (append_four_toNat ..)
  have ht1 : (unitValue (eight ++ [b8, b9, b10, b11])).extractLsb' 32 32 = w1 :=
    extract_unitValue_append [b0, b1, b2, b3] [b4, b5, b6, b7] _ rfl rfl (by decide : 12 ≤ 16) (append_four_toNat ..)
  have ht2 : (unitValue (eight ++ [b8, b9, b10, b11])).extractLsb' 64 32 = w2 :=
    extract_unitValue_append eight [b8, b9, b10, b11] [] rfl rfl (by decide : 12 ≤ 16) (append_four_toNat ..)
  have h8 {c : Context} (hc : c.size = 8) : decode c eight = .ok (decodeUnit c (unitValue eight)) :=
    decode_of_length hc.symm
  rw [h8 rfl, h8 rfl, h8 rfl, h8 rfl, h8 rfl, decode_of_length (c := .tspk) rfl]
  simp only [decodeUnit, hw0, hw1, ha1, ha2, ha3, ha4, ht0, ht1, ht2, and_self]

/-- Settles O46: the eight units, computed. -/
theorem writtenOutUnitsDecode : Obligations.WrittenOutUnitsDecode := by
  unfold Obligations.WrittenOutUnitsDecode
  decide

/-! ## Pseudo-units (R84) -/

section overlay

open Machine

variable (c f : U4) (k : Byte) (p : F64)

theorem sensorId_overlayIds : sensorId (overlayIds c f k p) = k := by
  rw [sensorId, overlayIds, BitVec.extractLsb'_append_eq_of_add_le (by decide)]
  exact BitVec.extractLsb'_eq_self

theorem fiberId_overlayIds : fiberId (overlayIds c f k p) = f := by
  rw [fiberId, overlayIds, BitVec.extractLsb'_append_eq_of_le (by decide),
    BitVec.extractLsb'_append_eq_of_add_le (by decide)]
  exact BitVec.extractLsb'_eq_self

theorem channelId_overlayIds : channelId (overlayIds c f k p) = c := by
  rw [channelId, overlayIds, BitVec.extractLsb'_append_eq_of_le (by decide),
    BitVec.extractLsb'_append_eq_of_le (by decide), BitVec.extractLsb'_append_eq_of_add_le (by decide)]
  exact BitVec.extractLsb'_eq_self

theorem upperHalf_overlayIds : (overlayIds c f k p).extractLsb' 16 16 = p.extractLsb' 16 16 := by
  rw [overlayIds, BitVec.extractLsb'_append_eq_of_le (by decide), BitVec.extractLsb'_append_eq_of_le (by decide),
    BitVec.extractLsb'_append_eq_of_le (by decide)]
  exact BitVec.extractLsb'_eq_self

/-- The wavelength is the 48 upper bits of the element's first eight bytes and the sentinel (R133). -/
theorem wavelength_eq_append (w0 w1 : U32) : wavelength w0 w1 = w1 ++ w0.extractLsb' 16 16 ++ 0x7FFF#16 := by
  rw [wavelength, bitsToF64, maskedWord_eq_append, BitVec.append_assoc]
  rfl

theorem wavelength_overlayIds :
    wavelength (overlayIds c f k p) (p.extractLsb' 32 32) = p.extractLsb' 16 48 ++ 0x7FFF#16 := by
  rw [wavelength_eq_append, upperHalf_overlayIds, BitVec.extractLsb'_append_extractLsb'_eq_extractLsb' (by decide)]

end overlay

/-- Settles O47: the overlaid word keeps the pattern's upper half, and its ids are the ones laid over it. -/
theorem pseudoUnitsOverlayIds : Obligations.PseudoUnitsOverlayIds := by
  intro c f k p d
  exact ⟨_, _, rfl, rfl, sensorId_overlayIds c f k p, fiberId_overlayIds c f k p, channelId_overlayIds c f k p,
    wavelength_overlayIds c f k p⟩

end Sys2Proof
end

section
/-!
The records of the unit operations: HDR (40_header_decoder.md), PEAK, TSPK, SINFO and ERR (41_payload_decoders.md), with the
operands they take from their words (42_field_extractors.md sections 1 and 2), and the time conversion (R104).
-/

namespace Sys2Proof.Machine

/-! ## The header (R100, R103, R165) -/

theorem elementCount_eq (st : SweepType) (len : U32) :
    elementCount st len = BitVec.ofNat 32 (len.toNat / (elementSize st).toNat) := by
  rw [elementCount, BitVec.udiv_def]

/-- Settles O16: the three rows are the normal header of their sweep type, whose element size is 8, 8 and 12. -/
theorem normalHeaderLoadsFrame : Obligations.NormalHeaderLoadsFrame := by
  intro cnt trig len ts s
  have hrow (st : SweepType) : normalHeader st cnt trig len ts s = .next { s with
      cnt := 0#5, sweep := st, rem := BitVec.ofNat 32 (len.toNat / (elementSize st).toNat), first := firstOf st
      errFrame := false
      phase := if len.toNat < (elementSize st).toNat then .awaitingFlag else .dataOffsetNormal
      output := s.output ++ [.headerInfo ⟨cnt, st, trig, 16#16, len, ts⟩] } := by
    rw [← phaseAfterHeader_elementCount, ← elementCount_eq]
    rfl
  exact ⟨hrow .peak, hrow .spectral, hrow .timestampedPeak⟩

/-- Settles O17: the three `.E` rows are the error header of their sweep type. -/
theorem errorHeaderOpensErrorFrame : Obligations.ErrorHeaderOpensErrorFrame :=
  fun _ _ _ _ _ _ _ => ⟨rfl, rfl, rfl⟩

/-- A header of a legal sweep type emits its own six fields and raises no fault. -/
theorem headerInfo_of_exec_headerInstr {h : Header} (hst : ¬2 < h.sweepType.toNat) (s : State) :
    ∃ t r, exec (headerInstr h) s = .next t ∧ t.output = s.output ++ [.headerInfo r] ∧ t.fault = s.fault ∧
      r.packetCounter = h.packetCounter ∧ (SweepType.code r.sweepType).toNat = h.sweepType.toNat ∧
      r.triggerMode = h.triggerMode ∧ r.dataOffset = h.dataOffset ∧ r.dataLength = h.dataLength ∧
      r.timeStamp = h.timeStamp := by
  obtain ⟨st, hcode⟩ := exists_sweepType_of_legal hst
  have hnum : (SweepType.code st).toNat = h.sweepType.toNat := by
    rw [hcode, BitVec.toNat_setWidth_of_le (by decide)]
  rw [exec_headerInstr_of_legal hcode]
  by_cases hoff : h.dataOffset = 16#16
  · rw [if_pos hoff]
    exact ⟨_, _, rfl, rfl, rfl, rfl, hnum, rfl, hoff.symm, rfl, rfl⟩
  · rw [if_neg hoff]
    exact ⟨_, _, rfl, rfl, rfl, rfl, hnum, rfl, rfl, rfl, rfl⟩

/-- Settles O18: both read the same fields of the same sixteen bytes, and both test the sweep type against 2. -/
theorem decodeHeaderAgreesWithHdr : Obligations.DecodeHeaderAgreesWithHdr := by
  intro bytes s hlen
  by_cases hst : 2 < (headerFields (unitValue bytes)).sweepType.toNat
  · exact ⟨_, _, decode_of_length hlen, exec_headerInstr_of_illegal hst s,
      .inl ⟨_, decodeHeader_of_illegal hlen hst, hst, rfl, rfl, rfl⟩⟩
  · obtain ⟨t, r, ht, hout, hfault, hfields⟩ := headerInfo_of_exec_headerInstr hst s
    exact ⟨_, t, decode_of_length hlen, ht,
      .inr ⟨_, r, decodeHeader_of_legal hlen (not_lt.mp hst), not_lt.mp hst, hout, hfault, hfields⟩⟩

/-- Settles O20: the seconds of any time stamp, less the offset, fit a signed 64-bit word. -/
theorem unixSecondsExact : Obligations.UnixSecondsExact := by
  intro t
  have ht := t.isLt
  rw [unixSeconds, BitVec.toInt_ofInt]
  exact Int.bmod_eq_of_le (by omega) (by omega)

/-! ## The operands as shifts and masks (R130 to R133) -/

theorem setWidth_and_eq_sensorId (w0 : U32) : (w0 &&& 0xFF#32).setWidth 8 = sensorId w0 :=
  setWidth_shift_and_eq_extract (mask := 0xFF#32) rfl w0 0

theorem setWidth_shift_and_eq_fiberId (w0 : U32) : ((w0 >>> 8) &&& 0x0F#32).setWidth 4 = fiberId w0 :=
  setWidth_shift_and_eq_extract rfl w0 8

theorem setWidth_shift_and_eq_channelId (w0 : U32) : ((w0 >>> 12) &&& 0x0F#32).setWidth 4 = channelId w0 :=
  setWidth_shift_and_eq_extract rfl w0 12

/-- Settles O21: the meaning of PEAK is an emit, a counted draw and ElementDone. -/
theorem peakElementRecord : Obligations.PeakElementRecord := by
  intro w0 w1 s _ id wl force
  simp only [id, force, setWidth_and_eq_sensorId, setWidth_shift_and_eq_fiberId, setWidth_shift_and_eq_channelId]
  exact congrArg Host.Outcome.next (State.elementDone_eq _)

/-- Settles O22: as PEAK, and the record carries the sub-timestamp raw and scaled. -/
theorem timestampedPeakElementRecord : Obligations.TimestampedPeakElementRecord := by
  intro w0 w1 w2 s _ id wl force
  simp only [id, force, setWidth_and_eq_sensorId, setWidth_shift_and_eq_fiberId, setWidth_shift_and_eq_channelId]
  exact congrArg Host.Outcome.next (State.elementDone_eq _)

/-- Settles O23: the meaning of SINFO is an emit, the clearing of FIRST and ElementDone. -/
theorem spectralInfoRecord : Obligations.SpectralInfoRecord := by
  intro w0 n s _
  rw [setWidth_and_eq_sensorId, setWidth_shift_and_eq_fiberId, setWidth_shift_and_eq_channelId]
  exact congrArg Host.Outcome.next (State.elementDone_eq _)

theorem classifyError_of_other {e : U32} (h500 : e ≠ 500#32) (h501 : e ≠ 501#32) : classifyError e = .internal := by
  rw [classifyError, if_neg h500, if_neg h501]

/-- Settles O26: the three rows are the one error payload of their id, whose class is the row's. -/
theorem errorPayloadRecord : Obligations.ErrorPayloadRecord := by
  intro e d s
  simp only [setWidth_and_eq_sensorId, setWidth_shift_and_eq_fiberId, setWidth_shift_and_eq_channelId]
  refine ⟨rfl, rfl, fun h500 h501 => ?_⟩
  rw [← classifyError_of_other h500 h501]
  rfl

/-! ## The wavelength of the unit (R133) -/

theorem wavelength_eq_or (w0 w1 : U32) :
    wavelength w0 w1 = (((w1 ++ w0 : BitVec 64) &&& 0xFFFFFFFFFFFF0000#64) ||| 0x7FFF#64) := by
  have hkeep : (0xFFFFFFFFFFFF0000#64) = BitVec.allOnes 32 ++ 0xFFFF0000#32 := rfl
  have hsentinel : (0x7FFF#64) = 0#32 ++ 0x00007FFF#32 := rfl
  rw [hkeep, hsentinel, BitVec.and_append, BitVec.or_append, BitVec.and_allOnes, BitVec.or_zero]
  rfl

/-- The sentinel's bits are in the fraction, so the fraction is not zero. -/
theorem f64Frac_wavelength_ne_zero (w0 w1 : U32) : f64Frac (wavelength w0 w1) ≠ 0 := by
  intro h0
  have hlow : (wavelength w0 w1).extractLsb' 0 16 = 0x7FFF#16 := by
    rw [wavelength_eq_append]
    exact BitVec.extractLsb'_append_eq_right
  have hzero : (wavelength w0 w1).extractLsb' 0 52 = 0#52 := BitVec.eq_of_toNat_eq h0
  rw [← BitVec.extractLsb'_extractLsb'_of_le (show 0 + 16 ≤ 52 by decide), hzero] at hlow
  exact absurd hlow (by decide)

/-- Settles O50: replacing the low half-word word by word is replacing it in the 64-bit value, and the sentinel keeps the
fraction from zero. -/
theorem wavelengthOfUnit : Obligations.WavelengthOfUnit := by
  intro w0 w1
  have hfrac := f64Frac_wavelength_ne_zero w0 w1
  exact ⟨wavelength_eq_or w0 w1, by simp [f64IsZero, hfrac], by simp [f64IsInf, hfrac]⟩

end Sys2Proof.Machine
end

section
/-!
What an earlier frame left behind is never seen (70_reset_and_hazards.md section 3, R226): states that agree on what is live
answer alike.
-/

namespace Sys2Proof.Machine

/-! ## What a step reads -/

/-- The four latches of two states agree (R23, R21). -/
def State.SameLatches (s t : State) : Prop :=
  s.sweep = t.sweep ∧ s.rem = t.rem ∧ s.first = t.first ∧ s.errFrame = t.errFrame

/-- Two states agree on what a unit operation takes from the state besides the latches: what it emits to, and what it looks
up. -/
structure State.SameStreams (s t : State) : Prop where
  fault : s.fault = t.fault
  faultInfo : s.faultInfo = t.faultInfo
  input : s.input = t.input
  output : s.output = t.output
  rst : s.rst = t.rst
  cal : s.cal = t.cal
  stop : s.stopAfterErrorFrame = t.stopAfterErrorFrame
  draws : s.draws = t.draws

section

variable {s t : State}

theorem State.SameLive.streams (h : s.SameLive t) : s.SameStreams t :=
  ⟨h.fault, h.faultInfo, h.input, h.output, h.rst, h.cal, h.stop, h.draws⟩

/-- With no unit in assembly BUF plays no part. -/
theorem State.SameStreams.sameLive (h : s.SameStreams t) (hs : s.cnt = 0#5) (ht : t.cnt = 0#5) (hp : s.phase = t.phase)
    (hl : s.phase = .awaitingHeader ∨ s.phase = .terminated ∨ s.SameLatches t) : s.SameLive t where
  cnt := hs.trans ht.symm
  phase := hp
  fault := h.fault
  faultInfo := h.faultInfo
  input := h.input
  output := h.output
  rst := h.rst
  cal := h.cal
  stop := h.stop
  draws := h.draws
  buf j hj := absurd hj (by rw [hs]; exact Nat.not_lt_zero j)
  latches := hl

theorem State.SameStreams.takeToken (h : s.SameStreams t) (rest : List Token) :
    (s.takeToken rest).SameStreams (t.takeToken rest) :=
  ⟨h.fault, h.faultInfo, rfl, h.output, h.rst, h.cal, h.stop, h.draws⟩

theorem State.SameStreams.emit (h : s.SameStreams t) (r : Record) : (s.emit r).SameStreams (t.emit r) :=
  ⟨h.fault, h.faultInfo, h.input, congrArg (· ++ [r]) h.output, h.rst, h.cal, h.stop, h.draws⟩

theorem State.SameStreams.countDraw (h : s.SameStreams t) : s.countDraw.SameStreams t.countDraw :=
  ⟨h.fault, h.faultInfo, h.input, h.output, h.rst, h.cal, h.stop, congrArg (· + 1) h.draws⟩

theorem State.SameStreams.raiseFault (h : s.SameStreams t) (code : FaultCode) (info : BitVec 3) :
    (s.raiseFault code info).SameLive (t.raiseFault code info) :=
  State.SameStreams.sameLive ⟨rfl, rfl, h.input, h.output, h.rst, h.cal, h.stop, h.draws⟩ rfl rfl rfl (.inr (.inl rfl))

/-- The end of an element reads the latches and leaves them alike. -/
theorem State.SameStreams.elementDone (h : s.SameStreams t) (hl : s.SameLatches t) :
    s.elementDone.SameLive t.elementDone := by
  obtain ⟨hsweep, hrem, hfirst, herr⟩ := hl
  refine State.SameStreams.sameLive ⟨h.fault, h.faultInfo, h.input, h.output, h.rst, h.cal, h.stop, h.draws⟩ rfl rfl ?_
    (.inr (.inr ⟨hsweep, congrArg (· - 1#32) hrem, hfirst, herr⟩))
  rw [State.elementDone_phase, State.elementDone_phase, hrem]

/-- A header rewrites the latches, so it does not matter what they were. -/
theorem State.SameStreams.latchFrame (h : s.SameStreams t) (p : Phase) (st : SweepType) (n : U32) (first err : Bool) :
    ((s.latchFrame st n first err).finishUnit p).SameLive ((t.latchFrame st n first err).finishUnit p) :=
  State.SameStreams.sameLive ⟨h.fault, h.faultInfo, h.input, h.output, h.rst, h.cal, h.stop, h.draws⟩ rfl rfl rfl
    (.inr (.inr ⟨rfl, rfl, rfl, rfl⟩))

theorem State.SameStreams.finishUnit (h : s.SameStreams t) (hl : s.SameLatches t) (p : Phase) :
    (s.finishUnit p).SameLive (t.finishUnit p) :=
  State.SameStreams.sameLive ⟨h.fault, h.faultInfo, h.input, h.output, h.rst, h.cal, h.stop, h.draws⟩ rfl rfl rfl
    (.inr (.inr hl))

theorem State.SameStreams.peakRecord_eq (h : s.SameStreams t) (w0 w1 : U32) : peakRecord s w0 w1 = peakRecord t w0 w1 := by
  simp only [peakRecord, h.cal, h.draws]

/-! ## A unit operation answers alike -/

theorem alike_of_eq {a b : Result} {u v : State} (ha : a = .next u) (hb : b = .next v) (h : u.SameLive v) : Alike a b := by
  rw [ha, hb]
  exact h

theorem State.SameStreams.exec_headerInstr (h : s.SameStreams t) (hd : Header) :
    Alike (exec (headerInstr hd) s) (exec (headerInstr hd) t) := by
  by_cases hst : 2 < hd.sweepType.toNat
  · rw [exec_headerInstr_of_illegal hst, exec_headerInstr_of_illegal hst]
    exact h.raiseFault _ _
  · obtain ⟨st, hcode⟩ := exists_sweepType_of_legal hst
    rw [exec_headerInstr_of_legal hcode, exec_headerInstr_of_legal hcode]
    split_ifs
    · exact (h.emit _).latchFrame _ _ _ _ _
    · exact (h.emit _).latchFrame _ _ _ _ _

/-- Inside a frame the latches agree too, and the record is made from what agrees. -/
theorem State.SameStreams.exec_payload (h : s.SameStreams t) (hl : s.SameLatches t) {i : Instr}
    (hi : i.context ≠ .header) : Alike (exec i s) (exec i t) := by
  cases i with
  | hdrIll3 | hdrIll47 | hdrPeak | hdrSpec | hdrTspk | hdrPeakE | hdrSpecE | hdrTspkE => exact absurd rfl hi
  | peak w0 w1 =>
    exact alike_of_eq rfl (by rw [exec, execPeak, ← h.peakRecord_eq]) ((h.emit _).countDraw.elementDone hl)
  | tspk w0 w1 w2 =>
    exact alike_of_eq rfl (by rw [exec, execTspk, ← h.peakRecord_eq]) ((h.emit _).countDraw.elementDone hl)
  | sinfo w0 n =>
    obtain ⟨hsweep, hrem, -, herr⟩ := hl
    have hx := h.emit (.spectralInfo ⟨sensorId w0, fiberId w0, channelId w0, n⟩)
    exact State.SameStreams.elementDone (s := State.clearFirst _) (t := State.clearFirst _)
      ⟨hx.fault, hx.faultInfo, hx.input, hx.output, hx.rst, hx.cal, hx.stop, hx.draws⟩ ⟨hsweep, hrem, rfl, herr⟩
  | ssamp a1 a2 a3 a4 => exact (h.emit _).elementDone hl
  | errMissing d | errMulti d | errInternal e d => exact (h.emit _).finishUnit hl _
  | flag sc r =>
    have hphase : phaseAfterFlag t.stopAfterErrorFrame t.errFrame = phaseAfterFlag s.stopAfterErrorFrame s.errFrame := by
      rw [h.stop, hl.2.2.2]
    exact alike_of_eq rfl (by rw [exec, execFlag, hphase]) ((h.emit _).finishUnit hl _)

/-! ## A step answers alike -/

theorem State.SameLive.latches_of_live (h : s.SameLive t) (hh : s.phase ≠ .awaitingHeader) (ht : s.phase ≠ .terminated) :
    s.SameLatches t := (h.latches.resolve_left hh).resolve_left ht

theorem State.SameLive.context_eq (h : s.SameLive t) : s.context = t.context := by
  unfold State.context
  rw [← h.phase]
  cases hp : s.phase with
  | dataOffsetNormal =>
    obtain ⟨hsweep, -, hfirst, -⟩ := h.latches_of_live (by rw [hp]; decide) (by rw [hp]; decide)
    rw [hsweep, hfirst]
  | _ => rfl

/-- The bytes of the unit are those below CNT and the token. -/
theorem State.SameLive.unitBytes_eq (h : s.SameLive t) {n : Nat} (hn : s.cnt.toNat + 1 = n) (b : Byte) :
    s.unitBytes n b = t.unitBytes n b := by
  have hprefix : s.buf.toList.take (n - 1) = t.buf.toList.take (n - 1) := by
    refine List.ext_getElem? fun j => ?_
    rw [List.getElem?_take, List.getElem?_take]
    split_ifs with hj
    · rw [Vector.getElem?_toList, Vector.getElem?_toList]
      exact h.buf j (by omega)
    · rfl
  rw [State.unitBytes, State.unitBytes, hprefix]

theorem State.SameLive.takeToken (h : s.SameLive t) (rest : List Token) :
    (s.takeToken rest).SameLive (t.takeToken rest) := { h with input := rfl }

theorem State.SameLive.storeByte (h : s.SameLive t) (b : Byte) (hn : s.cnt.toNat + 1 < 16) :
    (s.storeByte b).SameLive (t.storeByte b) :=
  { h with
    cnt := congrArg (· + 1#5) h.cnt
    buf := fun j hj => by
      rw [State.storeByte_cnt_toNat (c := .header) b hn] at hj
      rw [State.storeByte_buf, State.storeByte_buf, ← h.cnt]
      rcases Nat.lt_succ_iff_lt_or_eq.mp hj with hlt | rfl
      · rw [Vector.getElem?_setIfInBounds_ne hlt.ne', Vector.getElem?_setIfInBounds_ne hlt.ne']
        exact h.buf j hlt
      · rw [getElem?_setIfInBounds_self (by omega), getElem?_setIfInBounds_self (by omega)] }

theorem State.SameLive.exec_decodeUnit (h : s.SameLive t) {c : Context} (hc : s.context = some c) (u : BitVec 128) :
    Alike (exec (decodeUnit c u) s) (exec (decodeUnit c u) t) := by
  by_cases hp : s.phase = .awaitingHeader
  · rw [State.context_awaitingHeader hp] at hc
    cases hc
    exact h.streams.exec_headerInstr (headerFields u)
  · refine h.streams.exec_payload (h.latches_of_live hp (State.phase_ne_terminated_of_context hc)) ?_
    rw [decodeUnit_context]
    rintro rfl
    exact hp (State.phase_of_context_header hc)

theorem State.SameLive.byteStep (h : s.SameLive t) {c : Context} (hc : s.context = some c) (b : Byte) :
    Alike (byteStep c b s) (byteStep c b t) := by
  have hcnt : s.cnt.toNat = t.cnt.toNat := congrArg BitVec.toNat h.cnt
  have hsize := c.size_le
  rcases Nat.lt_trichotomy (s.cnt.toNat + 1) c.size with hn | hn | hn
  · rw [byteStep_lt b hn, byteStep_lt b (hcnt ▸ hn)]
    exact h.storeByte b (by omega)
  · rw [byteStep_eq b hn, byteStep_eq b (hcnt ▸ hn), h.unitBytes_eq hn]
    exact h.exec_decodeUnit hc _
  · rw [byteStep_gt b hn, byteStep_gt b (hcnt ▸ hn)]
    rfl

theorem State.SameLive.endStep (h : s.SameLive t) : Alike (endStep s) (endStep t) := by
  by_cases hb : s.phase = .awaitingHeader ∧ s.cnt = 0#5
  · rw [endStep_boundary hb, endStep_boundary (h.phase ▸ h.cnt ▸ hb)]
    exact { h with phase := rfl, latches := .inr (.inl rfl) }
  · rw [endStep_inside hb, endStep_inside (h.phase ▸ h.cnt ▸ hb)]
    exact h.streams.raiseFault _ _

theorem State.SameLive.tokenStep (h : s.SameLive t) {c : Context} (hc : s.context = some c) (tok : Token) :
    Alike (tokenStep c tok s) (tokenStep c tok t) := by
  cases tok with
  | byte b => exact h.byteStep hc b
  | endOfStream => exact h.endStep
  | ioError => exact h.streams.raiseFault _ _

theorem State.SameLive.step (h : s.SameLive t) : Alike (step s) (step t) := by
  cases hr : s.rst with
  | true =>
    rw [step_reset hr, step_reset (h.rst ▸ hr)]
    exact State.SameStreams.sameLive ⟨rfl, rfl, h.input, rfl, h.rst, h.cal, h.stop, h.draws⟩ rfl rfl rfl (.inl rfl)
  | false =>
    cases hc : s.context with
    | none =>
      rw [step_terminated hr hc, step_terminated (h.rst ▸ hr) (h.context_eq ▸ hc)]
      rfl
    | some c =>
      cases hi : s.input with
      | nil =>
        rw [step_noToken hr hc hi, step_noToken (h.rst ▸ hr) (h.context_eq ▸ hc) (h.input ▸ hi)]
        rfl
      | cons tok rest =>
        rw [step_token hr hc hi, step_token (h.rst ▸ hr) (h.context_eq ▸ hc) (h.input ▸ hi)]
        exact (h.takeToken rest).tokenStep hc tok

end

/-! ## The obligation -/

theorem run_succ_eq_andThen (k : Nat) (s : State) :
    Host.Core.run Sys2Proof.core (k + 1) s = andThen (step s) (Host.Core.run Sys2Proof.core k) := by
  have hstep : Host.Core.step Sys2Proof.core s = step s := rfl
  simp only [Host.Core.run, hstep]
  cases step s <;> rfl

/-- What follows alike outcomes and answers alike is alike. -/
theorem Alike.andThen {a b : Result} (h : Alike a b) {f : State → Result}
    (hf : ∀ u v : State, u.SameLive v → Alike (f u) (f v)) : Alike (andThen a f) (andThen b f) := by
  cases a with
  | next u =>
    cases b with
    | next v => exact hf u v h
    | fault _ | refused _ => exact h.elim
  | fault _ =>
    cases b with
    | fault _ => exact h
    | next _ | refused _ => exact h.elim
  | refused _ =>
    cases b with
    | refused _ => exact h
    | next _ | fault _ => exact h.elim

/-- Steps that answer alike carry over to runs. -/
theorem State.SameLive.run {s t : State} (h : s.SameLive t) (k : Nat) :
    Alike (Host.Core.run Sys2Proof.core k s) (Host.Core.run Sys2Proof.core k t) := by
  induction k generalizing s t with
  | zero => exact h
  | succ k ih =>
    rw [run_succ_eq_andThen, run_succ_eq_andThen]
    exact h.step.andThen fun _ _ => ih

/-- Settles O35: at a frame boundary neither BUF nor the latches are live, a step reads only what is live and leaves it
alike, and a run is steps. -/
theorem frameIndependentOfEarlierFrames : Obligations.FrameIndependentOfEarlierFrames := by
  refine ⟨fun s t hp h0 ht => ?_, fun s t h => h.step, fun s t k h => h.run k⟩
  rw [ht]
  exact State.SameStreams.sameLive ⟨rfl, rfl, rfl, rfl, rfl, rfl, rfl, rfl⟩ h0 h0 rfl (.inl hp)

end Sys2Proof.Machine
end

section
/-!
Units and frames (44_frame_orchestrator.md sections 1 and 3, 41_payload_decoders.md section 6): the byte steps of a unit do
what its operation does (R162, R163, D1), and the units of a frame run one after another (R117, R118, R169).
-/

namespace Sys2Proof.Machine

/-! ## Dispatch (R163) -/

/-- A completing byte runs a well-formed instruction whose encoding is the bytes in BUF and that byte. -/
theorem step_runs_encoded_unit {s : State} {c : Context} {b : Byte} {rest : List Token} (hr : s.rst = false)
    (hc : s.context = some c) (hi : s.input = .byte b :: rest) (hn : s.cnt.toNat + 1 = c.size) :
    ∃ i : Instr, i.context = c ∧ i.wellFormed = true ∧ encode i = s.buf.toList.take (c.size - 1) ++ [b] ∧
      step s = exec i (s.takeToken rest) :=
  ⟨_, decodeUnit_context c _, wellFormed_decodeUnit c _,
    encode_decodeUnit (State.unitBytes_length s c.size_pos c.size_le b), step_completes hr hc hi hn⟩

/-- Settles O9: each row of the dispatch table is a context and its length. -/
theorem dispatchFollowsSequencerState : Obligations.DispatchFollowsSequencerState := by
  intro s b rest c n hrow hr hi
  obtain ⟨hc, rfl⟩ : s.context = some c ∧ n = c.size := by
    rcases hrow with ⟨hp, rfl, rfl⟩ | ⟨hp, hs, rfl, rfl⟩ | ⟨hp, hs, hf, rfl, rfl⟩ | ⟨hp, hs, hf, rfl, rfl⟩ |
      ⟨hp, hs, rfl, rfl⟩ | ⟨hp, rfl, rfl⟩ | ⟨hp, rfl, rfl⟩
    · exact ⟨State.context_awaitingHeader hp, rfl⟩
    · exact ⟨by simp only [State.context, hp, hs], rfl⟩
    · exact ⟨by simp only [State.context, hp, hs, hf, if_true], rfl⟩
    · exact ⟨by simp [State.context, hp, hs, hf], rfl⟩
    · exact ⟨by simp only [State.context, hp, hs], rfl⟩
    · exact ⟨State.context_dataOffsetError hp, rfl⟩
    · exact ⟨State.context_awaitingFlag hp, rfl⟩
  exact ⟨fun hn => step_runs_encoded_unit hr hc hi hn, fun hn => ⟨_, step_buffers hr hc hi hn, rfl, rfl⟩⟩

/-! ## Bytes written into BUF one after another -/

theorem writeFrom_getElem?_below {j : Nat} :
    ∀ (bs : List Byte) {i : Nat} (v : Vector Byte 16), j < i → (writeFrom bs i v)[j]? = v[j]?
  | [], _, _, _ => rfl
  | _ :: bs, i, v, h => by
    rw [writeFrom, writeFrom_getElem?_below bs _ (Nat.lt_succ_of_lt h), Vector.getElem?_setIfInBounds_ne h.ne']

theorem writeFrom_getElem?_above {j : Nat} :
    ∀ (bs : List Byte) {i : Nat} (v : Vector Byte 16), i + bs.length ≤ j → (writeFrom bs i v)[j]? = v[j]?
  | [], _, _, _ => rfl
  | b :: bs, i, v, h => by
    rw [List.length_cons] at h
    rw [writeFrom, writeFrom_getElem?_above bs _ (by omega), Vector.getElem?_setIfInBounds_ne (by omega)]

theorem writeFrom_getElem?_inside :
    ∀ (bs : List Byte) {i k : Nat} (v : Vector Byte 16), k < bs.length → i + bs.length ≤ 16 →
      (writeFrom bs i v)[i + k]? = bs[k]?
  | b :: bs, i, 0, v, _, hfit => by
    rw [List.length_cons] at hfit
    have hbelow := writeFrom_getElem?_below bs (v.setIfInBounds i b) (Nat.lt_add_one i)
    exact hbelow.trans (getElem?_setIfInBounds_self (by omega) b)
  | b :: bs, i, k + 1, v, hk, hfit => by
    rw [List.length_cons] at hk hfit
    rw [writeFrom, List.getElem?_cons_succ, ← writeFrom_getElem?_inside bs (i := i + 1) (v.setIfInBounds i b)
      (by omega) (by omega), Nat.add_right_comm, Nat.add_assoc]

/-- The first bytes of BUF are those written from index 0 on. -/
theorem take_writeFrom {bs : List Byte} (hfit : bs.length ≤ 16) (v : Vector Byte 16) :
    (writeFrom bs 0 v).toList.take bs.length = bs := by
  refine List.ext_getElem? fun j => ?_
  rw [List.getElem?_take]
  split_ifs with hj
  · have hread := writeFrom_getElem?_inside bs (i := 0) v hj (by omega)
    rwa [Nat.zero_add, ← Vector.getElem?_toList] at hread
  · exact (List.getElem?_eq_none (not_lt.mp hj)).symm

/-! ## The byte steps of a unit (R162, D1) -/

theorem run_one (s : State) : Host.Core.run Sys2Proof.core 1 s = step s := by
  rw [run_succ_eq_andThen]
  cases step s <;> rfl

/-- Bytes that do not complete the unit are stored one after another. -/
theorem run_stores {c : Context} {rest : List Token} :
    ∀ (bs : List Byte) {s : State}, s.rst = false → s.context = some c → s.cnt.toNat + bs.length < c.size →
      s.input = bs.map Token.byte ++ rest →
      Host.Core.run Sys2Proof.core bs.length s = (.next { s with
        buf := writeFrom bs s.cnt.toNat s.buf, cnt := BitVec.ofNat 5 (s.cnt.toNat + bs.length), input := rest } : Result)
  | [], s, _, _, _, hi => by
    rw [List.length_nil, Nat.add_zero, BitVec.ofNat_toNat, BitVec.setWidth_eq, writeFrom]
    exact congrArg (fun ts => Host.Outcome.next { s with input := ts }) hi
  | b :: bs, s, hr, hc, hfit, hi => by
    rw [List.length_cons] at hfit
    have hn : s.cnt.toNat + 1 < c.size := by omega
    have hcnt := State.storeByte_cnt_toNat (s := s.takeToken (bs.map Token.byte ++ rest)) b hn
    have hrest := run_stores (rest := rest) bs (s := (s.takeToken (bs.map Token.byte ++ rest)).storeByte b) hr hc
      (by rw [hcnt, State.takeToken_cnt]; omega) rfl
    refine (run_succ_of_next bs.length (step_buffers hr hc hi hn)).trans (hrest.trans ?_)
    rw [hcnt, State.takeToken_cnt, List.length_cons, Nat.add_comm bs.length 1, ← Nat.add_assoc]
    rfl

/-- The byte steps of a unit run its operation, the unit's bytes but the last in BUF and CNT at the last. -/
theorem run_unit {s : State} {c : Context} {bytes : List Byte} {rest : List Token} (hr : s.rst = false)
    (hc : s.context = some c) (h0 : s.cnt = 0#5) (hi : s.input = bytes.map Token.byte ++ rest)
    (hlen : bytes.length = c.size) :
    Host.Core.run Sys2Proof.core c.size s =
      exec (decodeUnit c (unitValue bytes)) { s with
        buf := writeFrom bytes.dropLast 0 s.buf, cnt := BitVec.ofNat 5 (c.size - 1), input := rest } := by
  have hpos := c.size_pos
  have hsize := c.size_le
  obtain ⟨first, b, rfl⟩ : ∃ first b, bytes = first ++ [b] :=
    ⟨_, _, (List.dropLast_append_getLast (List.ne_nil_of_length_pos (by omega))).symm⟩
  have hfirst : c.size = first.length + 1 := by rw [← hlen, List.length_append, List.length_singleton]
  have hcnt : s.cnt.toNat = 0 := by rw [h0]; rfl
  have hstores := run_stores (rest := .byte b :: rest) first hr hc (by omega) (by simpa using hi)
  rw [List.dropLast_concat, show c.size - 1 = first.length by omega]
  rw [hcnt, Nat.zero_add] at hstores
  let u : State := { s with
    buf := writeFrom first 0 s.buf, cnt := BitVec.ofNat 5 first.length, input := .byte b :: rest }
  have hlast : u.cnt.toNat + 1 = c.size := by
    change (BitVec.ofNat 5 first.length).toNat + 1 = c.size
    rw [BitVec.toNat_ofNat, Nat.mod_eq_of_lt (by omega), hfirst]
  have hbytes : u.unitBytes c.size b = first ++ [b] := by
    rw [State.unitBytes, show c.size - 1 = first.length by omega, take_writeFrom (by omega)]
  rw [hfirst]
  refine (run_add 1 hstores).trans ((run_one u).trans ((step_completes (s := u) hr hc rfl hlast).trans ?_))
  rw [hbytes]
  rfl

/-- Settles O10: the byte steps store all bytes but the last below CNT, and the last one runs the operation. -/
theorem unitRunIsOneOperation : Obligations.UnitRunIsOneOperation := by
  intro s c bytes rest i hr hc h0 hi hdec
  obtain ⟨hlen, rfl⟩ := decode_eq_ok.mp hdec
  have hsize := c.size_le
  have hfirst : bytes.dropLast.length = c.size - 1 := by rw [List.length_dropLast, hlen]
  refine ⟨writeFrom bytes.dropLast 0 s.buf, fun j hj => ?_, fun j hj => ?_, run_unit hr hc h0 hi hlen⟩
  · have hread := writeFrom_getElem?_inside bytes.dropLast (i := 0) s.buf (show j < bytes.dropLast.length by omega) (by omega)
    rw [Nat.zero_add] at hread
    rw [hread, List.getElem?_dropLast, if_pos (by omega)]
  · exact writeFrom_getElem?_above bytes.dropLast s.buf (by omega)

/-! ## Units one after another -/

/-- The operations of the units lead from one state to the other, each in the context that the state before it selects. -/
inductive UnitsRun : List Instr → State → State → Prop
  | nil (s : State) : UnitsRun [] s s
  | cons {i : Instr} {is : List Instr} {s u t : State} (hwf : i.wellFormed = true) (hc : s.context = some i.context)
      (hx : exec i s = .next u) (h : UnitsRun is u t) : UnitsRun (i :: is) s t

theorem UnitsRun.single {i : Instr} {s t : State} (hwf : i.wellFormed = true) (hc : s.context = some i.context)
    (hx : exec i s = .next t) : UnitsRun [i] s t := .cons hwf hc hx (.nil t)

theorem UnitsRun.append {is js : List Instr} {s u t : State} (h : UnitsRun is s u) (h' : UnitsRun js u t) :
    UnitsRun (is ++ js) s t := by
  induction h with
  | nil => exact h'
  | cons hwf hc hx _ ih => exact .cons hwf hc hx (ih h')

/-- How many bytes the units are. -/
def unitsSize (is : List Instr) : Nat := (is.map fun i => i.context.size).sum

/-- An operation does not look at BUF, CNT or the stream. -/
theorem exec_of_other_streams {i : Instr} {s t : State} (h : exec i s = .next t) (v : Vector Byte 16) (n : BitVec 5)
    (ts : List Token) :
    exec i { s with buf := v, cnt := n, input := ts } = .next { t with buf := v, input := ts } := by
  cases i <;> cases h <;> rfl

/-- The byte steps of units one after another do what their operations do, whatever BUF held before. -/
theorem run_units {is : List Instr} {s t : State} (h : UnitsRun is s t) (hr : s.rst = false) (h0 : s.cnt = 0#5)
    (rest : List Token) (v : Vector Byte 16) :
    ∃ v', Host.Core.run Sys2Proof.core (unitsSize is) { s with buf := v, input := unitTokens is ++ rest } =
      (.next { t with buf := v', input := rest } : Result) := by
  induction h generalizing v with
  | nil s => exact ⟨v, rfl⟩
  | @cons i is s u t hwf hc hx h ih =>
    have hframe := unitFrame_of_exec hx
    obtain ⟨v', hv'⟩ := ih (hframe.rst.trans hr) hframe.cnt (writeFrom (encode i).dropLast 0 v)
    have hunit := run_unit (s := { s with buf := v, input := unitTokens (i :: is) ++ rest }) (bytes := encode i)
      (rest := unitTokens is ++ rest) hr hc h0 (by simp only [unitTokens_cons, List.append_assoc]) (encode_length i)
    rw [unitValue_encode, decodeUnit_encodeUnit hwf] at hunit
    exact ⟨v', (run_add (unitsSize is) (hunit.trans (exec_of_other_streams hx _ _ _))).trans hv'⟩

theorem State.atBoundary_iff {s : State} :
    s.atBoundary = true ↔ s.rst = false ∧ s.phase = .awaitingHeader ∧ s.cnt = 0#5 := by
  simp [State.atBoundary, and_assoc]

/-- Units offered at a frame boundary run one after another. -/
theorem run_units_at_boundary {is : List Instr} {s t : State} {rest : List Token} (h : UnitsRun is s t)
    (hb : s.atBoundary = true) (hi : s.input = unitTokens is ++ rest) :
    ∃ v, Host.Core.run Sys2Proof.core (unitsSize is) s = (.next { t with buf := v, input := rest } : Result) := by
  obtain ⟨hr, -, h0⟩ := State.atBoundary_iff.mp hb
  have hrun := run_units h hr h0 rest s.buf
  rwa [← hi] at hrun

/-! ## An error frame (R169) -/

theorem phaseAfterFlag_errFrame (stop : Bool) :
    phaseAfterFlag stop true = if stop = true then .terminated else .awaitingHeader := by
  rw [phaseAfterFlag_eq_ite]
  simp only [and_true]

/-- Settles O36: the three units lead from the boundary through PHASE DataOffsetError and AwaitingFlag, and their bytes are
16, 8 and 8. -/
theorem errorFrameRun : Obligations.ErrorFrameRun := by
  intro s h e d sc r rest hb hst hoff hi
  obtain ⟨hr, hp, h0⟩ := State.atBoundary_iff.mp hb
  obtain ⟨st, hcode⟩ := exists_sweepType_of_legal hst.not_gt
  have hnum : (SweepType.code st).toNat = h.sweepType.toNat := by
    rw [hcode, BitVec.toNat_setWidth_of_le (by decide)]
  have hheader : exec (headerInstr h) s =
      errorHeader st h.packetCounter h.triggerMode h.dataOffset h.dataLength h.timeStamp s := by
    rw [exec_headerInstr_of_legal hcode, if_neg hoff]
  have hunits := UnitsRun.cons (wellFormed_headerInstr h)
    (by rw [headerInstr_context]; exact State.context_awaitingHeader hp) hheader
    (.cons (wellFormed_errorInstr e d) (by rw [errorInstr_context]; rfl) (exec_errorInstr e d _)
      (.single (i := .flag sc r) rfl rfl rfl))
  obtain ⟨v, hv⟩ := run_units_at_boundary hunits hb hi
  have hsize : unitsSize [headerInstr h, errorInstr e d, .flag sc r] = 32 := by
    simp only [unitsSize, List.map_cons, List.map_nil, headerInstr_context, errorInstr_context]
    rfl
  rw [hsize] at hv
  refine ⟨_, ⟨h.packetCounter, st, h.triggerMode, h.dataOffset, h.dataLength, h.timeStamp⟩,
    ⟨e, d, classifyError e, sensorId d, fiberId d, channelId d⟩, hv, rfl, ?_, rfl, rfl, hnum, rfl, rfl, rfl, rfl,
    phaseAfterFlag_errFrame _⟩
  change ((s.output ++ [_]) ++ [_]) ++ [_] = s.output ++ [_, _, _]
  rw [List.append_assoc, List.append_assoc]
  rfl

end Sys2Proof.Machine
end

section
/-!
The normal frames (41_payload_decoders.md section 6, 44_frame_orchestrator.md section 2): a header, the elements REM counts, and
the flag (R117, R118, R166).
-/

namespace Sys2Proof.Machine

theorem unitsSize_append (is js : List Instr) : unitsSize (is ++ js) = unitsSize is + unitsSize js := by
  simp [unitsSize]

/-- Units of one context. -/
theorem unitsSize_map {α : Type} {mk : α → Instr} {c : Context} (hc : ∀ a, (mk a).context = c) (as : List α) :
    unitsSize (as.map mk) = c.size * as.length := by
  have hsize : ((fun i : Instr => i.context.size) ∘ mk) = fun _ => c.size := funext fun a => congrArg _ (hc a)
  rw [unitsSize, List.map_map, hsize, List.map_const', List.sum_replicate, smul_eq_mul, Nat.mul_comm]

/-! ## A payload -/

/-- Between two states a payload has been read: its records are emitted, the flag is due, and nothing that the flag unit
looks at has changed. -/
structure PayloadRead (records : List Record) (s u : State) : Prop where
  cnt : u.cnt = 0#5
  phase : u.phase = .awaitingFlag
  output : u.output = s.output ++ records
  fault : u.fault = s.fault
  errFrame : u.errFrame = s.errFrame

/-- Elements of one kind: each emits its record, made from the table and the index of the free values alone, uses up `d`
free values, and ends with ElementDone. -/
structure ElementKind {α : Type} (c : Context) (mk : α → Instr) (record : State → α → Record) (d : Nat) : Prop where
  context : ∀ a, (mk a).context = c
  wellFormed : ∀ a, (mk a).wellFormed = true
  exec : ∀ (s : State) (a : α),
    exec (mk a) s = .next { (s.emit (record s a)).elementDone with draws := s.draws + d }
  record_congr : ∀ {s t : State} (a : α), s.cal = t.cal → s.draws = t.draws → record s a = record t a

theorem elementKind_peak :
    ElementKind .peak (fun p : U32 × U32 => .peak p.1 p.2) (fun s p => .peak (peakRecord s p.1 p.2)) 1 where
  context _ := rfl
  wellFormed _ := rfl
  exec _ _ := rfl
  record_congr p hcal hdraws := by simp only [peakRecord, hcal, hdraws]

theorem elementKind_tspk :
    ElementKind .tspk (fun p : U32 × U32 × U32 => .tspk p.1 p.2.1 p.2.2)
      (fun s p => .timestampedPeak ⟨peakRecord s p.1 p.2.1, p.2.2, subTimestampSeconds p.2.2⟩) 1 where
  context _ := rfl
  wellFormed _ := rfl
  exec _ _ := rfl
  record_congr p hcal hdraws := by simp only [peakRecord, hcal, hdraws]

theorem elementKind_ssamp :
    ElementKind .ssamp (fun a : SpectralSample => .ssamp a.amp1 a.amp2 a.amp3 a.amp4)
      (fun _ a => .spectralSample a) 0 where
  context _ := rfl
  wellFormed _ := rfl
  exec _ _ := rfl
  record_congr _ _ _ := rfl

section

variable {α : Type} {c : Context} {mk : α → Instr} {record : State → α → Record} {d : Nat}

/-- As many elements as REM counts are read one after another, and then the flag is due. -/
theorem ElementKind.unitsRun (kind : ElementKind c mk record d) :
    ∀ (as : List α) {s : State}, ({ s with phase := .dataOffsetNormal } : State).context = some c → s.cnt = 0#5 →
      s.phase = phaseAfterHeader s.rem → s.rem.toNat = as.length →
      ∃ u, UnitsRun (as.map mk) s u ∧
        PayloadRead (as.mapIdx fun k a => record { s with draws := s.draws + d * k } a) s u
  | [], s, _, h0, hp, hrem => by
    have hzero : s.rem = 0#32 := BitVec.eq_of_toNat_eq hrem
    rw [hzero] at hp
    exact ⟨s, .nil s, h0, hp, (List.append_nil _).symm, rfl, rfl⟩
  | a :: as, s, hc, h0, hp, hrem => by
    rw [List.length_cons] at hrem
    have hne : s.rem ≠ 0#32 := fun h => by rw [h] at hrem; cases hrem
    rw [phaseAfterHeader, if_neg hne] at hp
    have hcontext : s.context = some (mk a).context := by
      rw [kind.context, ← hc, ← hp]
    obtain ⟨u, hu, hread⟩ := kind.unitsRun as
      (s := { (s.emit (record s a)).elementDone with draws := s.draws + d }) hc rfl rfl
      (by change (s.rem - 1#32).toNat = as.length; bv_omega)
    refine ⟨u, .cons (kind.wellFormed a) hcontext (kind.exec s a) hu, hread.cnt, hread.phase, ?_, hread.fault,
      hread.errFrame⟩
    have hfirst : record s a = record { s with draws := s.draws + d * 0 } a := kind.record_congr a rfl rfl
    have hlater (k : Nat) (b : α) :
        record { (s.emit (record s a)).elementDone with draws := s.draws + d + d * k } b =
          record { s with draws := s.draws + d * (k + 1) } b :=
      kind.record_congr b rfl (by simp only []; ring)
    rw [hread.output, List.mapIdx_cons]
    simp only [hlater]
    rw [← hfirst]
    change (s.output ++ [_]) ++ _ = _
    rw [List.append_assoc]
    rfl

end

/-! ## A frame -/

/-- The state that `normalHeader` answers (R100). -/
def loadedFrame (st : SweepType) (cnt : U12) (trig : BitVec 1) (len : U32) (ts : U64) (s : State) : State :=
  ((s.emit (.headerInfo ⟨cnt, st, trig, 16#16, len, ts⟩)).latchFrame st (elementCount st len) (firstOf st)
    false).finishUnit (phaseAfterHeader (elementCount st len))

section

variable {st : SweepType} {cnt : U12} {trig : BitVec 1} {len : U32} {ts : U64} {s : State}

/-- A frame whose payload is read after its header: the header's record, the payload's, the flag's, and the block is at the
next boundary. -/
theorem run_normalFrame {header : Instr} {payload : List Instr} {records : List Record} {sc r : U32} {rest : List Token}
    {u : State} (hb : s.atBoundary = true) (hc : header.context = .header) (hwf : header.wellFormed = true)
    (hx : exec header s = normalHeader st cnt trig len ts s)
    (hu : UnitsRun payload (loadedFrame st cnt trig len ts s) u)
    (hread : PayloadRead records (loadedFrame st cnt trig len ts s) u)
    (hi : s.input = unitTokens ([header] ++ payload ++ [.flag sc r]) ++ rest) :
    ∃ t, Host.Core.run Sys2Proof.core (16 + unitsSize payload + 8) s = (.next t : Result) ∧ t.input = rest ∧
      t.output = s.output ++ ([.headerInfo ⟨cnt, st, trig, 16#16, len, ts⟩] ++ records ++ [.flag ⟨sc, r⟩]) ∧
      t.phase = .awaitingHeader ∧ t.cnt = 0#5 ∧ t.fault = s.fault := by
  obtain ⟨hr, hp, h0⟩ := State.atBoundary_iff.mp hb
  have hheader : UnitsRun [header] s (loadedFrame st cnt trig len ts s) :=
    .single hwf (by rw [hc]; exact State.context_awaitingHeader hp) hx
  have hflag := UnitsRun.single (i := .flag sc r) rfl (State.context_awaitingFlag hread.phase) rfl
  obtain ⟨v, hv⟩ := run_units_at_boundary ((hheader.append hu).append hflag) hb hi
  have hsize : unitsSize ([header] ++ payload ++ [.flag sc r]) = 16 + unitsSize payload + 8 := by
    rw [unitsSize_append, unitsSize_append]
    simp only [unitsSize, List.map_cons, List.map_nil, hc]
    rfl
  rw [hsize] at hv
  refine ⟨_, hv, rfl, ?_, ?_, rfl, hread.fault⟩
  · change u.output ++ [_] = _
    rw [hread.output]
    change ((s.output ++ [_]) ++ _) ++ _ = _
    rw [List.append_assoc, List.append_assoc, List.append_assoc]
  · change phaseAfterFlag u.stopAfterErrorFrame u.errFrame = _
    rw [hread.errFrame, phaseAfterFlag_eq_ite]
    exact if_neg nofun

theorem elementCount_toNat (st : SweepType) (len : U32) :
    (elementCount st len).toNat = len.toNat / (elementSize st).toNat := by
  rw [elementCount, BitVec.toNat_udiv]

end

/-- Settles O38: the elements are of the kind PEAK, as many as the header loads into REM. -/
theorem peakFrameRun : Obligations.PeakFrameRun := by
  intro s cnt trig len ts sc r peaks rest hb hlen hi
  obtain ⟨u, hu, hread⟩ := elementKind_peak.unitsRun peaks (s := loadedFrame .peak cnt trig len ts s) rfl rfl rfl
    ((elementCount_toNat .peak len).trans hlen.symm)
  have hrun := run_normalFrame hb rfl rfl rfl hu hread hi
  rw [unitsSize_map elementKind_peak.context] at hrun
  simp only [Nat.one_mul] at hrun
  exact hrun

/-- Settles O39: the elements are of the kind TSPK, as many as the header loads into REM. -/
theorem timestampedPeakFrameRun : Obligations.TimestampedPeakFrameRun := by
  intro s cnt trig len ts sc r peaks rest hb hlen hi
  obtain ⟨u, hu, hread⟩ := elementKind_tspk.unitsRun peaks (s := loadedFrame .timestampedPeak cnt trig len ts s) rfl rfl
    rfl ((elementCount_toNat .timestampedPeak len).trans hlen.symm)
  have hrun := run_normalFrame hb rfl rfl rfl hu hread hi
  rw [unitsSize_map elementKind_tspk.context] at hrun
  simp only [Nat.one_mul] at hrun
  exact hrun

/-- Settles O37: the first element is SINFO, which clears FIRST, and the others are of the kind SSAMP. -/
theorem spectralFrameRun : Obligations.SpectralFrameRun := by
  intro s cnt trig len ts w0 n sc r samples rest hb hlen hi
  let info := Record.spectralInfo ⟨sensorId w0, fiberId w0, channelId w0, n⟩
  let s1 := loadedFrame .spectral cnt trig len ts s
  let s2 := (s1.emit info).clearFirst.elementDone
  have hrem : s1.rem.toNat = samples.length + 1 := by
    refine (elementCount_toNat .spectral len).trans ?_
    change len.toNat / 8 = _
    omega
  have hphase : s1.phase = .dataOffsetNormal := by
    refine if_neg fun hzero => ?_
    rw [show s1.rem = 0#32 from hzero] at hrem
    cases hrem
  have hcontext : s1.context = some .sinfo := by
    simp only [State.context, hphase]
    rfl
  obtain ⟨u, hu, hread⟩ := elementKind_ssamp.unitsRun samples (s := s2) rfl rfl rfl
    (by change (s1.rem - 1#32).toNat = samples.length; bv_omega)
  have hsamples : (samples.mapIdx fun _ a => Record.spectralSample a) = samples.map Record.spectralSample :=
    List.ext_getElem? fun j => by rw [List.getElem?_mapIdx, List.getElem?_map]
  rw [hsamples] at hread
  have hpayload : PayloadRead (info :: samples.map Record.spectralSample) s1 u :=
    ⟨hread.cnt, hread.phase, hread.output.trans (List.append_assoc s1.output [info] _), hread.fault, hread.errFrame⟩
  have hrun := run_normalFrame (header := .hdrSpec cnt trig len ts) hb rfl rfl rfl
    (UnitsRun.cons (i := .sinfo w0 n) rfl hcontext rfl hu) hpayload hi
  have hsize : unitsSize (.sinfo w0 n :: samples.map fun a => .ssamp a.amp1 a.amp2 a.amp3 a.amp4) = len.toNat := by
    rw [hlen, ← List.singleton_append, unitsSize_append, unitsSize_map elementKind_ssamp.context]
    rfl
  rw [hsize] at hrun
  exact hrun

end Sys2Proof.Machine
end

section
/-!
The outside (20_memory.md sections 2 and 3, 70_reset_and_hazards.md sections 2 and 4): the integrator's moves and the order of
start-up (R225, R227, R229), and the fields of a record on the output port (R74 to R81).
-/

namespace Sys2Proof.Machine

/-! ## Loading the calibration table (R48, R225) -/

section

variable {s : State}

theorem loadCal_of_held (hr : s.rst = true) (c f : U4) (k : Byte) (e : CalEntry) :
    loadCal c f k e s = .next { s with cal := CalTable.write s.cal (calIndex c f k).toNat e } := if_pos hr

theorem setStop_of_held (hr : s.rst = true) (stop : Bool) :
    setStop stop s = .next { s with stopAfterErrorFrame := stop } := if_pos hr

theorem connectSource_of_held (hr : s.rst = true) (tokens : List Token) :
    connectSource tokens s = .next { s with input := tokens } := if_pos hr

end

section

variable {t : CalTable} (hw : CalTable.wf t = true) (c f : U4) (k : Byte) (e : CalEntry)

include hw

theorem calRead_write_same : calRead (CalTable.write t (calIndex c f k).toNat e) c f k = e := by
  rw [calRead, CalTable.read_write _ hw, if_pos rfl]

theorem calRead_write_other {c' f' : U4} {k' : Byte} (hne : (c', f', k') ≠ (c, f, k)) :
    calRead (CalTable.write t (calIndex c f k).toNat e) c' f' k' = calRead t c' f' k' := by
  have hindex : (calIndex c' f' k').toNat ≠ (calIndex c f k).toNat := fun h =>
    hne (calIndex_inj (BitVec.eq_of_toNat_eq h))
  rw [calRead, CalTable.read_write _ hw, if_neg hindex, calRead]

end

/-- Entries loaded in two groups are loaded one group after the other. -/
theorem loadAll_append :
    ∀ (earlier later : List (U4 × U4 × Byte × CalEntry)) (s : State),
      loadAll (earlier ++ later) s = andThen (loadAll earlier s) (loadAll later)
  | [], _, _ => rfl
  | (c, f, k, e) :: earlier, later, s => by
    rw [List.cons_append, loadAll, loadAll]
    cases loadCal c f k e s with
    | next t => exact loadAll_append earlier later t
    | fault _ | refused _ => rfl

/-- The last entry loaded is read back, whatever was loaded before it. -/
theorem calRead_of_loadAll_append {s t : State} (hr : s.rst = true) (hw : CalTable.wf s.cal = true)
    {earlier : List (U4 × U4 × Byte × CalEntry)} {c f : U4} {k : Byte} {e : CalEntry}
    (h : loadAll (earlier ++ [(c, f, k, e)]) s = .next t) : calRead t.cal c f k = e := by
  obtain ⟨u, hu, hframe, hwf⟩ := loadAll_next earlier hr
  have hru : u.rst = true := by
    rw [hframe]
    exact hr
  rw [loadAll_append, hu, andThen_next, loadAll, loadCal_of_held hru, andThen_next, loadAll] at h
  cases h
  exact calRead_write_same (hwf hw) c f k e

/-! ## The order of start-up (R225) -/

/-- Start-up ends in the reset state with the table loaded, the parameter set and the new stream connected. -/
theorem startUp_eq (entries : List (U4 × U4 × Byte × CalEntry)) (stop : Bool) (tokens : List Token) (s : State) :
    ∃ u, loadAll entries { s.resetBlock with rst := true } = .next u ∧
      (CalTable.wf s.cal = true → CalTable.wf u.cal = true) ∧
      startUp entries stop tokens s = .next { State.reset with
        input := tokens, cal := u.cal, stopAfterErrorFrame := stop, draws := s.draws } := by
  obtain ⟨u, hu, hframe, hwf⟩ := loadAll_next entries (s := { s.resetBlock with rst := true }) rfl
  refine ⟨u, hu, hwf, ?_⟩
  have hr : u.rst = true := by rw [hframe]
  have hdraws : u.draws = s.draws := by rw [hframe]; rfl
  rw [startUp, State.driveRst_true, hu, andThen_next, setStop_of_held hr, andThen_next,
    connectSource_of_held (s := { u with stopAfterErrorFrame := stop }) hr, andThen_next, State.driveRst_of_held
    (s := { u with stopAfterErrorFrame := stop, input := tokens }) hr, ← hdraws]
  rfl

/-- Settles O58: in reset each move is its one field, a canonical table reads back what was stored, start-up is the moves in
their order, and outside reset each is refused. -/
theorem calibrationTableLoad : Obligations.CalibrationTableLoad := by
  refine ⟨fun s c f k e hw hr => ?_, fun s stop tokens hr => ⟨setStop_of_held hr stop, connectSource_of_held hr tokens⟩,
    fun s entries stop tokens => ?_, fun s c f k e stop tokens hr => ?_⟩
  · exact ⟨_, loadCal_of_held hr c f k e, rfl, CalTable.wf_write (calIndex_lt c f k) hw, calRead_write_same hw c f k e,
      fun c' f' k' hne => calRead_write_other hw c f k e hne⟩
  · obtain ⟨u, hu, hwf, hstart⟩ := startUp_eq entries stop tokens s
    refine ⟨_, hstart, rfl, ?_, fun hw => ⟨hwf hw, ?_⟩⟩
    · rintro rfl
      cases hu
      rfl
    · rintro earlier c f k e rfl
      exact calRead_of_loadAll_append (s := { s.resetBlock with rst := true }) (t := u) rfl hw hu
  · have hnot : ¬s.rst = true := by rw [hr]; decide
    exact ⟨if_neg hnot, if_neg hnot, if_neg hnot⟩

/-! ## The fields of a record on the port (R74 to R81) -/

/-- Above its own width a widened value is zero. -/
theorem extract_setWidth_above {w n start : Nat} (x : BitVec w) (len : Nat) (h : w ≤ start) :
    (x.setWidth n).extractLsb' start len = 0#len := by
  apply BitVec.eq_of_getLsbD_eq
  intro i hi
  have hout : x.getLsbD (start + i) = false := BitVec.getLsbD_of_ge x _ (by omega)
  rw [BitVec.getLsbD_extractLsb', BitVec.getLsbD_setWidth, hout, Bool.and_false, Bool.and_false, BitVec.getLsbD_zero]

/-- The valid bit of a packed PeakRecord stands above the wavelength. -/
theorem getLsbD_pack_peak (r : PeakRecord) : ((PeakRecord.pack r).setWidth 241).getLsbD 80 = r.forceValid := by
  have hbit : (PeakRecord.pack r).extractLsb' 80 1 = BitVec.ofBool r.forceValid := by
    simp (disch := decide) only [PeakRecord.pack, BitVec.extractLsb'_append_eq_of_le,
      BitVec.extractLsb'_append_eq_of_add_le, Nat.reduceSub, BitVec.extractLsb'_eq_self]
  have hget := congrArg (BitVec.getLsbD · 0) hbit
  rw [BitVec.getLsbD_extractLsb', BitVec.getLsbD_ofBool] at hget
  exact (BitVec.getLsbD_setWidth ..).trans hget

/-- Settles O59: a field is the slice of the concatenation at the sum of the widths below it. -/
theorem recordPackingPositions : Obligations.RecordPackingPositions := by
  refine ⟨fun r => ⟨rfl, ?_⟩, fun r => ⟨rfl, ?_⟩, fun r => ⟨rfl, ?_⟩, fun r => ⟨rfl, ?_⟩, fun r => ⟨rfl, ?_⟩,
    fun r => ⟨rfl, ?_⟩, fun r => ⟨rfl, ?_⟩⟩
  all_goals
    simp (disch := decide) only [Record.pack, getLsbD_pack_peak, HeaderInfo.pack,
      TimestampedPeakRecord.pack, SpectralInfo.pack, SpectralSample.pack, ErrorRecord.pack, FlagInfo.pack,
      extract_setWidth_above, BitVec.extractLsb'_setWidth_of_le, BitVec.extractLsb'_append_eq_of_le,
      BitVec.extractLsb'_append_eq_of_add_le, Nat.reduceSub, BitVec.extractLsb'_eq_self, and_self]
  all_goals
    simp (disch := decide) only [PeakRecord.pack, BitVec.extractLsb'_append_eq_of_le,
      BitVec.extractLsb'_append_eq_of_add_le, Nat.reduceSub, BitVec.extractLsb'_eq_self, and_self]

end Sys2Proof.Machine
end

section
/-!
Rounding (43_calibration.md section 1, R141): a rounded result as a number on a scale of powers of two, that it is a nearest
one, when it overflows, and that it does not fall as the exact result grows.
-/

namespace Sys2Proof.Machine

/-! ## The magnitude of a pattern on its scale -/

/-- The magnitude that the 63 low bits of a pattern stand for, in units of 2^-1074. -/
def bitsUnits (bits : Nat) : Nat :=
  if bits / 2 ^ 52 = 0 then bits % 2 ^ 52 else (2 ^ 52 + bits % 2 ^ 52) * 2 ^ (bits / 2 ^ 52 - 1)

theorem f64Units_pack (sign : Bool) {bits : Nat} (h : bits < 2 ^ 63) : f64Units (f64Pack sign bits) = bitsUnits bits := by
  rw [f64Units, f64Exp_pack sign h, f64Frac_pack sign h, bitsUnits]

/-- `k` is written with all its 53 digits on the scale `q`, but for the subnormal scale 0. -/
def OnScale (q k : Nat) : Prop := k ≤ 2 ^ 53 ∧ (q = 0 ∨ 2 ^ 52 ≤ k)

/-- The bits of scale `q` and digits `k` stand for `k` last places of 2^q units each. -/
theorem bitsUnits_of_onScale {q k : Nat} (h : OnScale q k) : bitsUnits (q * 2 ^ 52 + k) = k * 2 ^ q := by
  obtain ⟨hk, hq⟩ := h
  rcases Nat.lt_or_ge k (2 ^ 52) with hsub | hnormal
  · obtain rfl : q = 0 := by omega
    rw [bitsUnits, if_pos (by omega)]
    omega
  rcases Nat.lt_or_eq_of_le hk with hlt | rfl
  · have hexp : (q * 2 ^ 52 + k) / 2 ^ 52 = q + 1 := by omega
    have hfrac : 2 ^ 52 + (q * 2 ^ 52 + k) % 2 ^ 52 = k := by omega
    rw [bitsUnits, hexp, if_neg (Nat.succ_ne_zero q), hfrac, Nat.add_sub_cancel]
  · have hexp : (q * 2 ^ 52 + 2 ^ 53) / 2 ^ 52 = q + 2 := by omega
    have hfrac : (q * 2 ^ 52 + 2 ^ 53) % 2 ^ 52 = 0 := by omega
    rw [bitsUnits, hexp, if_neg (Nat.succ_ne_zero _), hfrac, show q + 2 - 1 = q + 1 from rfl, Nat.pow_succ]
    ring

/-- Every pattern has its scale and digits. -/
theorem exists_onScale (bits : Nat) : ∃ q k, OnScale q k ∧ k < 2 ^ 53 ∧ bits = q * 2 ^ 52 + k := by
  rcases Nat.lt_or_ge bits (2 ^ 52) with hsub | hnormal
  · exact ⟨0, bits, ⟨by omega, .inl rfl⟩, by omega, by omega⟩
  · exact ⟨bits / 2 ^ 52 - 1, 2 ^ 52 + bits % 2 ^ 52, ⟨by omega, .inr (by omega)⟩, by omega, by omega⟩

/-- Digits of a lower scale are below all full digits of a higher one. -/
theorem scaled_lt_of_scale_lt {q k q' : Nat} (hk : k < 2 ^ 53) (hq : q < q') : k * 2 ^ q < 2 ^ 52 * 2 ^ q' := by
  calc k * 2 ^ q < 2 ^ 53 * 2 ^ q := Nat.mul_lt_mul_of_pos_right hk (Nat.two_pow_pos q)
    _ = 2 ^ 52 * 2 ^ (q + 1) := by rw [Nat.pow_succ 2 q]; ring
    _ ≤ 2 ^ 52 * 2 ^ q' := Nat.mul_le_mul_left _ (Nat.pow_le_pow_right (by decide) hq)

/-- The order of the bits is the order of the magnitudes. -/
theorem bitsUnits_mono {b b' : Nat} (h : b ≤ b') : bitsUnits b ≤ bitsUnits b' := by
  obtain ⟨q, k, hs, hk, rfl⟩ := exists_onScale b
  obtain ⟨q', k', hs', hk', rfl⟩ := exists_onScale b'
  rw [bitsUnits_of_onScale hs, bitsUnits_of_onScale hs']
  obtain ⟨-, hfull⟩ := hs
  obtain ⟨-, hfull'⟩ := hs'
  rcases Nat.lt_trichotomy q q' with hlt | rfl | hgt
  · exact (scaled_lt_of_scale_lt hk hlt).le.trans (Nat.mul_le_mul_right _ (by omega))
  · exact Nat.mul_le_mul_right _ (by omega)
  · omega

/-! ## The rounded quotient -/

/-- No multiple of `d` is nearer to `n`, and another one is as near only in a tie, which goes to the even multiple. -/
theorem roundQuotient_nearest (n : Nat) {d : Nat} (hd : 0 < d) (j : Nat) :
    ((roundQuotient n d * d : Nat) - n : Int).natAbs ≤ ((j * d : Nat) - n : Int).natAbs ∧
    (((roundQuotient n d * d : Nat) - n : Int).natAbs = ((j * d : Nat) - n : Int).natAbs → j ≠ roundQuotient n d →
      roundQuotient n d % 2 = 0) := by
  obtain ⟨hhi, hlo, htie⟩ := roundQuotient_spec (n := n) hd
  generalize roundQuotient n d = k at *
  rw [Nat.mul_assoc] at hhi hlo htie
  rcases Nat.lt_trichotomy j k with hj | rfl | hj
  · have hstep : j * d + d ≤ k * d := by
      rw [← Nat.succ_mul]
      exact Nat.mul_le_mul_right d hj
    generalize j * d = x at *
    generalize k * d = y at *
    omega
  · exact ⟨le_rfl, fun _ hne => absurd rfl hne⟩
  · have hstep : k * d + d ≤ j * d := by
      rw [← Nat.succ_mul]
      exact Nat.mul_le_mul_right d hj
    generalize j * d = x at *
    generalize k * d = y at *
    omega

theorem roundQuotient_mono {n n' d : Nat} (hd : 0 < d) (h : n ≤ n') : roundQuotient n d ≤ roundQuotient n' d := by
  obtain ⟨hhi, -, htie⟩ := roundQuotient_spec (n := n) hd
  obtain ⟨-, hlo', htie'⟩ := roundQuotient_spec (n := n') hd
  by_contra hgt
  have hstep : roundQuotient n' d * d + d ≤ roundQuotient n d * d := by
    rw [← Nat.succ_mul]
    exact Nat.mul_le_mul_right d (not_le.mp hgt)
  generalize roundQuotient n d = k at *
  generalize roundQuotient n' d = k' at *
  rw [Nat.mul_assoc] at hhi htie hlo' htie'
  have hk : k = k' + 1 := by
    have : k * d ≤ (k' + 1) * d := by rw [Nat.succ_mul]; omega
    have := Nat.le_of_mul_le_mul_right this hd
    omega
  generalize k * d = x at *
  generalize k' * d = y at *
  omega

/-- A multiple of `d` is its own rounded quotient. -/
theorem roundQuotient_mul_self (k : Nat) {d : Nat} (hd : 0 < d) : roundQuotient (k * d) d = k := by
  rw [roundQuotient, Nat.mul_mod_left, Nat.mul_div_cancel _ hd]
  exact if_neg (by omega)

/-! ## The rounded pattern -/

/-- The last place of the binary64 nearest to `n / d` units is 2 to this power. -/
def roundScale (n d : Nat) : Nat := Nat.log2 (n / d) - 52

/-- How many last places the binary64 nearest to `n / d` units is. -/
def roundDigits (n d : Nat) : Nat := roundQuotient n (d * 2 ^ roundScale n d)

/-- The 63 low bits of the rounded result, before the overflow check. -/
def roundBits (n d : Nat) : Nat := roundScale n d * 2 ^ 52 + roundDigits n d

theorem f64Round_eq_pack (sign : Bool) (n d : Nat) : f64Round sign n d = f64Pack sign (min infBits (roundBits n d)) := by
  change (if infBits ≤ roundBits n d then f64Inf sign else f64Pack sign (roundBits n d)) = _
  split_ifs with h
  · rw [Nat.min_eq_left h, f64Inf]
  · rw [Nat.min_eq_right (not_le.mp h).le]

/-- The digits of a result are full on its scale: rounding up may carry, rounding down loses none. -/
theorem onScale_round (n d : Nat) : OnScale (roundScale n d) (roundDigits n d) := by
  obtain ⟨hlo, hhi⟩ := roundQuotient_mem n (d * 2 ^ roundScale n d)
  rw [← Nat.div_div_eq_div_mul] at hlo hhi
  rw [← roundDigits] at hlo hhi
  have hpos := Nat.two_pow_pos (roundScale n d)
  refine ⟨?_, ?_⟩
  · have hlog : n / d < 2 ^ (53 + roundScale n d) :=
      Nat.lt_log2_self.trans_le (Nat.pow_le_pow_right (by decide) (by unfold roundScale; omega))
    have hfloor : n / d / 2 ^ roundScale n d < 2 ^ 53 := by
      rw [Nat.div_lt_iff_lt_mul hpos, ← Nat.pow_add]
      exact hlog
    omega
  · rcases Nat.eq_zero_or_pos (roundScale n d) with h0 | hscale
    · exact .inl h0
    · have hexp : Nat.log2 (n / d) = 52 + roundScale n d := by unfold roundScale at *; omega
      have hne : n / d ≠ 0 := by
        intro h0
        rw [h0, Nat.log2_zero] at hexp
        omega
      have hlog : 2 ^ (52 + roundScale n d) ≤ n / d := hexp ▸ Nat.log2_self_le hne
      have hfloor : 2 ^ 52 ≤ n / d / 2 ^ roundScale n d := by
        rw [Nat.le_div_iff_mul_le hpos, ← Nat.pow_add]
        exact hlog
      exact .inr (hfloor.trans hlo)

theorem bitsUnits_roundBits (n d : Nat) : bitsUnits (roundBits n d) = roundDigits n d * 2 ^ roundScale n d :=
  bitsUnits_of_onScale (onScale_round n d)

section

variable {n d : Nat} (hd : 0 < d)

include hd

/-- On a scale above 0 the full digits below the result are below the exact quotient too. -/
theorem full_le_of_scale_pos (h : 0 < roundScale n d) : 2 ^ 52 * 2 ^ roundScale n d * d ≤ n := by
  have hexp : Nat.log2 (n / d) = 52 + roundScale n d := by unfold roundScale at *; omega
  have hne : n / d ≠ 0 := by
    intro h0
    rw [h0, Nat.log2_zero] at hexp
    omega
  rw [← Nat.le_div_iff_mul_le hd, ← Nat.pow_add, ← hexp]
  exact Nat.log2_self_le hne

/-- A result is a nearest pattern, and in a tie its digits are even. -/
theorem roundBits_nearest (b : Nat) :
    ((bitsUnits (roundBits n d) * d : Nat) - n : Int).natAbs ≤ ((bitsUnits b * d : Nat) - n : Int).natAbs ∧
    (((bitsUnits (roundBits n d) * d : Nat) - n : Int).natAbs = ((bitsUnits b * d : Nat) - n : Int).natAbs →
      bitsUnits b ≠ bitsUnits (roundBits n d) → roundDigits n d % 2 = 0) := by
  have hD : 0 < d * 2 ^ roundScale n d := Nat.mul_pos hd (Nat.two_pow_pos _)
  have hplace (k : Nat) : k * 2 ^ roundScale n d * d = k * (d * 2 ^ roundScale n d) := by ring
  obtain ⟨q, k, hs, hk, rfl⟩ := exists_onScale b
  rw [bitsUnits_roundBits n d, bitsUnits_of_onScale hs, hplace]
  rcases Nat.lt_or_ge q (roundScale n d) with hlt | hge
  · have hfull := full_le_of_scale_pos hd (Nat.zero_lt_of_lt hlt)
    have hbelow : k * 2 ^ q * d < 2 ^ 52 * 2 ^ roundScale n d * d :=
      Nat.mul_lt_mul_of_pos_right (scaled_lt_of_scale_lt hk hlt) hd
    obtain ⟨hnear, -⟩ := roundQuotient_nearest n hD (2 ^ 52)
    rw [← roundDigits] at hnear
    rw [hplace] at hfull hbelow
    generalize 2 ^ 52 * (d * 2 ^ roundScale n d) = x at *
    generalize k * 2 ^ q * d = y at *
    generalize roundDigits n d * (d * 2 ^ roundScale n d) = z at *
    omega
  · obtain ⟨e, rfl⟩ := Nat.exists_eq_add_of_le hge
    have hmultiple : k * 2 ^ (roundScale n d + e) = k * 2 ^ e * 2 ^ roundScale n d := by rw [Nat.pow_add]; ring
    obtain ⟨hnear, htie⟩ := roundQuotient_nearest n hD (k * 2 ^ e)
    rw [hmultiple, hplace]
    exact ⟨hnear, fun heq hne => htie heq fun h => hne (by rw [roundDigits, h])⟩

/-- The bits of a result do not fall as the exact quotient grows. -/
theorem roundBits_mono {n' : Nat} (h : n ≤ n') : roundBits n d ≤ roundBits n' d := by
  have hlog : Nat.log2 (n / d) ≤ Nat.log2 (n' / d) := by
    rw [Nat.log2_eq_log_two, Nat.log2_eq_log_two]
    exact Nat.log_mono_right (Nat.div_le_div_right h)
  obtain ⟨hdigits, -⟩ := onScale_round n d
  obtain ⟨-, hfull'⟩ := onScale_round n' d
  have hscale : roundScale n d ≤ roundScale n' d := by unfold roundScale; omega
  rcases Nat.lt_or_eq_of_le hscale with hlt | heq
  · unfold roundBits
    omega
  · have hmono := roundQuotient_mono (d := d * 2 ^ roundScale n d) (Nat.mul_pos hd (Nat.two_pow_pos _)) h
    rw [roundBits, roundBits, roundDigits, roundDigits, ← heq]
    exact Nat.add_le_add_left hmono _

/-- The exact quotient is below what 54 digits on the scale make. -/
theorem lt_of_scale : n < 2 ^ 53 * 2 ^ roundScale n d * d := by
  have hlog : n / d < 2 ^ (53 + roundScale n d) :=
    Nat.lt_log2_self.trans_le (Nat.pow_le_pow_right (by decide) (by unfold roundScale; omega))
  rw [Nat.pow_add] at hlog
  exact (Nat.div_lt_iff_lt_mul hd).mp hlog

/-- A result reaches the scale `e + 2`, or carries into it, exactly from half a last place below that scale on. -/
theorem le_roundBits_iff (e : Nat) : (e + 3) * 2 ^ 52 ≤ roundBits n d ↔ (2 ^ 54 - 1) * 2 ^ e * d ≤ n := by
  obtain ⟨hdigits, hfull⟩ := onScale_round n d
  have hpos : 0 < 2 ^ e * d := Nat.mul_pos (Nat.two_pow_pos e) hd
  rw [roundBits, Nat.mul_assoc]
  rcases Nat.lt_trichotomy (roundScale n d) (e + 1) with hlt | heq | hgt
  · have hsmall : 2 ^ roundScale n d ≤ 2 ^ e := Nat.pow_le_pow_right (by decide) (Nat.le_of_lt_succ hlt)
    have hbelow := (lt_of_scale hd).trans_le (Nat.mul_le_mul_right d (Nat.mul_le_mul_left (2 ^ 53) hsmall))
    rw [Nat.mul_assoc] at hbelow
    generalize 2 ^ e * d = x at *
    omega
  · obtain ⟨hhi, hlo, htie⟩ := roundQuotient_spec (n := n) (Nat.mul_pos hd (Nat.two_pow_pos (roundScale n d)))
    have hplace : d * 2 ^ roundScale n d = 2 * (2 ^ e * d) := by rw [heq, Nat.pow_succ]; ring
    rw [← roundDigits, Nat.mul_assoc, hplace] at hhi hlo htie
    rw [heq]
    generalize 2 ^ e * d = x at *
    rcases Nat.lt_or_eq_of_le hdigits with hk | hk
    · have hlower : roundDigits n d * (2 * x) ≤ (2 ^ 53 - 2) * (2 * x) ∨ roundDigits n d = 2 ^ 53 - 1 := by
        rcases Nat.lt_or_eq_of_le (Nat.le_sub_one_of_lt hk) with hk' | hk'
        · exact .inl (Nat.mul_le_mul_right _ (Nat.le_sub_one_of_lt hk'))
        · exact .inr hk'
      rcases hlower with hlower | hodd
      · generalize roundDigits n d * (2 * x) = y at *
        omega
      · rw [hodd] at hlo htie ⊢
        omega
    · rw [hk] at hhi ⊢
      omega
  · have hlarge : 2 ^ (e + 2) ≤ 2 ^ roundScale n d := Nat.pow_le_pow_right (by decide) hgt
    have habove := (Nat.mul_le_mul_right d (Nat.mul_le_mul_left (2 ^ 52) hlarge)).trans
      (full_le_of_scale_pos hd (Nat.zero_lt_of_lt hgt))
    rw [show 2 ^ 52 * 2 ^ (e + 2) * d = 2 ^ 54 * (2 ^ e * d) by rw [Nat.pow_add]; ring] at habove
    generalize 2 ^ e * d = x at *
    omega

/-- Half a last place above the largest finite value, in units of 2^-1074. -/
def overflowUnits : Nat := (2 ^ 54 - 1) * 2 ^ 2044

theorem overflow_iff : infBits ≤ roundBits n d ↔ overflowUnits * d ≤ n := le_roundBits_iff hd 2044

end

/-- A number of at most 53 digits is a whole number of its last places, wherever its point stands. -/
theorem pow_roundScale_dvd {w : Nat} (hw : w < 2 ^ 53) (e : Nat) : 2 ^ roundScale (w * 2 ^ e) 1 ∣ w * 2 ^ e := by
  have hscale : roundScale (w * 2 ^ e) 1 ≤ e := by
    by_contra hgt
    have hpow : 2 ^ (e + 1) ≤ 2 ^ roundScale (w * 2 ^ e) 1 := Nat.pow_le_pow_right (by decide) (not_le.mp hgt)
    have hfull := full_le_of_scale_pos (n := w * 2 ^ e) Nat.one_pos (Nat.zero_lt_of_lt (not_le.mp hgt))
    have hlt : w * 2 ^ e < 2 ^ 53 * 2 ^ e := Nat.mul_lt_mul_of_pos_right hw (Nat.two_pow_pos e)
    rw [Nat.pow_succ] at hpow
    omega
  exact (Nat.pow_dvd_pow 2 hscale).mul_left w

end Sys2Proof.Machine
end

section
/-!
The arithmetic of the block (43_calibration.md section 1): the operations are the exact result rounded once (R141), the derived
constants (R143), and the sub-timestamp (42_field_extractors.md section 3, R134).
-/

namespace Sys2Proof.Machine

/-! ## Finite patterns, infinities and zeros -/

theorem f64IsFinite_eq_true {p : F64} : f64IsFinite p = true ↔ f64Exp p ≠ 2047 := bne_iff_ne

theorem f64IsNaN_of_finite {p : F64} (h : f64IsFinite p = true) : f64IsNaN p = false := by
  simp [f64IsNaN, f64IsFinite_eq_true.mp h]

theorem f64IsInf_of_finite {p : F64} (h : f64IsFinite p = true) : f64IsInf p = false := by
  simp [f64IsInf, f64IsFinite_eq_true.mp h]

theorem f64IsNaN_of_inf {p : F64} (h : f64IsInf p = true) : f64IsNaN p = false := by
  simp only [f64IsInf, Bool.and_eq_true, beq_iff_eq] at h
  simp [f64IsNaN, h.2]

/-- What is no NaN is finite or an infinity. -/
theorem f64IsFinite_of_not_inf {p : F64} (hn : f64IsNaN p = false) (hi : f64IsInf p = false) : f64IsFinite p = true := by
  rw [f64IsFinite_eq_true]
  intro hexp
  simp [f64IsInf, hexp] at hi
  simp [f64IsNaN, hexp, hi] at hn

theorem f64IsFinite_of_zero {p : F64} (h : f64IsZero p = true) : f64IsFinite p = true := by
  simp only [f64IsZero, Bool.and_eq_true, beq_iff_eq] at h
  simp [f64IsFinite, h.1]

theorem f64Units_eq_zero_iff {p : F64} : f64Units p = 0 ↔ f64IsZero p = true := by
  have hpos : 2 ^ (f64Exp p - 1) ≠ 0 := (Nat.two_pow_pos _).ne'
  unfold f64Units
  split_ifs with hexp
  · simp [f64IsZero, hexp]
  · simp [f64IsZero, hexp]

theorem f64Units_pos {p : F64} (h : f64IsZero p = false) : 0 < f64Units p := by
  refine Nat.pos_of_ne_zero fun h0 => ?_
  rw [f64Units_eq_zero_iff.mp h0] at h
  cases h

/-- The 63 low bits of a pattern. -/
def f64Bits (p : F64) : Nat := f64Exp p * 2 ^ 52 + f64Frac p

theorem f64Bits_lt (p : F64) : f64Bits p < 2 ^ 63 := by
  have hexp : f64Exp p < 2 ^ 11 := BitVec.isLt _
  have hfrac : f64Frac p < 2 ^ 52 := BitVec.isLt _
  unfold f64Bits
  omega

theorem f64Units_eq_bitsUnits (p : F64) : f64Units p = bitsUnits (f64Bits p) := by
  conv_lhs => rw [f64_eq_pack p]
  exact f64Units_pack _ (f64Bits_lt p)

theorem f64IsFinite_iff_bits {p : F64} : f64IsFinite p = true ↔ f64Bits p < infBits := by
  have hexp : f64Exp p < 2 ^ 11 := BitVec.isLt _
  have hfrac : f64Frac p < 2 ^ 52 := BitVec.isLt _
  rw [f64IsFinite_eq_true, f64Bits, infBits]
  omega

theorem f64Bits_pack (sign : Bool) {bits : Nat} (h : bits < 2 ^ 63) : f64Bits (f64Pack sign bits) = bits := by
  rw [f64Bits, f64Exp_pack sign h, f64Frac_pack sign h]
  omega

theorem f64Bits_of_inf {p : F64} (h : f64IsInf p = true) : f64Bits p = infBits := by
  simp only [f64IsInf, Bool.and_eq_true, beq_iff_eq] at h
  rw [f64Bits, h.1, h.2]
  rfl

/-- The pattern of an infinity counts for more than every finite one. -/
theorem f64Units_lt_of_finite {p : F64} (h : f64IsFinite p = true) : f64Units p < bitsUnits infBits := by
  have hlargest : bitsUnits (infBits - 1) < bitsUnits infBits := by decide +kernel
  rw [f64Units_eq_bitsUnits]
  exact (bitsUnits_mono (Nat.le_sub_one_of_lt (f64IsFinite_iff_bits.mp h))).trans_lt hlargest

theorem f64IsZero_zero (sign : Bool) : f64IsZero (f64Zero sign) = true := by cases sign <;> decide

/-! ## The rounded pattern -/

/-- The magnitude of the rounded result, an infinity's pattern where it overflows. -/
def roundedUnits (n d : Nat) : Nat := bitsUnits (min infBits (roundBits n d))

theorem min_infBits_lt (b : Nat) : min infBits b < 2 ^ 63 :=
  (Nat.min_le_left _ _).trans_lt (by decide)

theorem f64Units_round (sign : Bool) (n d : Nat) : f64Units (f64Round sign n d) = roundedUnits n d := by
  rw [f64Round_eq_pack, f64Units_pack sign (min_infBits_lt _), roundedUnits]

theorem f64IsFinite_round {sign : Bool} {n d : Nat} : f64IsFinite (f64Round sign n d) = true ↔ roundBits n d < infBits := by
  rw [f64IsFinite_iff_bits, f64Round_eq_pack, f64Bits_pack sign (min_infBits_lt _)]
  omega

theorem f64Round_of_overflow {sign : Bool} {n d : Nat} (h : f64IsFinite (f64Round sign n d) = false) :
    f64Round sign n d = f64Inf sign := by
  have hover : ¬roundBits n d < infBits := by rw [← f64IsFinite_round (sign := sign), h]; decide
  rw [f64Round_eq_pack, Nat.min_eq_left (not_lt.mp hover), f64Inf]

/-- A quotient below the overflow threshold rounds to a finite pattern. -/
theorem f64IsFinite_round_of_lt {sign : Bool} {n d : Nat} (hd : 0 < d) (h : n < overflowUnits * d) :
    f64IsFinite (f64Round sign n d) = true := by
  rw [f64IsFinite_round, ← not_le, overflow_iff hd]
  exact not_le.mpr h

/-- The fraction's last bit is that of the digits. -/
theorem f64Frac_round_mod_two {sign : Bool} {n d : Nat} (h : roundBits n d < infBits) :
    f64Frac (f64Round sign n d) % 2 = roundDigits n d % 2 := by
  rw [f64Round_eq_pack, f64Frac_pack sign (min_infBits_lt _), Nat.min_eq_right h.le, roundBits]
  omega

/-- A finite result is nearest to the exact quotient among all finite patterns, ties to the even fraction. -/
theorem f64Round_nearest {sign : Bool} {n d : Nat} (hd : 0 < d) (h : roundBits n d < infBits) (p : F64) :
    ((f64Units (f64Round sign n d) : Int) * d - n).natAbs ≤ ((f64Units p : Int) * d - n).natAbs ∧
    (((f64Units (f64Round sign n d) : Int) * d - n).natAbs = ((f64Units p : Int) * d - n).natAbs →
      f64Units p ≠ f64Units (f64Round sign n d) → f64Frac (f64Round sign n d) % 2 = 0) := by
  rw [f64Units_round, roundedUnits, Nat.min_eq_right h.le, f64Units_eq_bitsUnits p, f64Frac_round_mod_two h,
    ← Nat.cast_mul, ← Nat.cast_mul]
  exact roundBits_nearest hd (f64Bits p)

/-! ## The operations on finite operands -/

section

variable {a b : F64} (nan : F64) (ha : f64IsFinite a = true) (hb : f64IsFinite b = true)

include ha hb

theorem fmul_eq_round : fmul nan a b = f64Round (f64Sign a ^^ f64Sign b) (f64Units a * f64Units b) unitsPerOne := by
  simp [fmul, f64IsNaN_of_finite ha, f64IsNaN_of_finite hb, f64IsInf_of_finite ha, f64IsInf_of_finite hb]

theorem fdiv_eq_round (h0 : f64IsZero b = false) :
    fdiv nan a b = f64Round (f64Sign a ^^ f64Sign b) (f64Units a * unitsPerOne) (f64Units b) := by
  simp [fdiv, f64IsNaN_of_finite ha, f64IsNaN_of_finite hb, f64IsInf_of_finite ha, f64IsInf_of_finite hb, h0]

theorem fdiv_zero_eq_inf (ha0 : f64IsZero a = false) (hb0 : f64IsZero b = true) :
    fdiv nan a b = f64Inf (f64Sign a ^^ f64Sign b) := by
  simp [fdiv, f64IsNaN_of_finite ha, f64IsNaN_of_finite hb, f64IsInf_of_finite ha, f64IsInf_of_finite hb, ha0, hb0]

theorem fsub_eq_ite :
    fsub nan a b =
      if f64Value a - f64Value b = 0 then f64Zero (f64Sign a && !f64Sign b)
      else f64Round (decide (f64Value a - f64Value b < 0)) (f64Value a - f64Value b).natAbs 1 := by
  simp [fsub, f64IsNaN_of_finite ha, f64IsNaN_of_finite hb, f64IsInf_of_finite ha, f64IsInf_of_finite hb]

theorem fsub_eq_round (hne : f64Value a ≠ f64Value b) :
    fsub nan a b = f64Round (decide (f64Value a < f64Value b)) (f64Value a - f64Value b).natAbs 1 := by
  rw [fsub_eq_ite nan ha hb, if_neg (sub_ne_zero.mpr hne)]
  simp only [sub_neg]

theorem fsub_of_value_eq (heq : f64Value a = f64Value b) : fsub nan a b = f64Zero (f64Sign a && !f64Sign b) := by
  rw [fsub_eq_ite nan ha hb, if_pos (sub_eq_zero.mpr heq)]

end

theorem fsub_self (nan : F64) {a : F64} (ha : f64IsFinite a = true) : fsub nan a a = f64Zero false := by
  rw [fsub_of_value_eq nan ha ha rfl, Bool.and_not_self]

/-! ## NaN operands and the operations that make a NaN (R141, R142) -/

section

variable {nan a b : F64}

theorem fsub_of_nan (h : f64IsNaN a = true ∨ f64IsNaN b = true) : fsub nan a b = f64NaN nan :=
  if_pos (Bool.or_eq_true_iff.mpr h)

theorem fmul_of_nan (h : f64IsNaN a = true ∨ f64IsNaN b = true) : fmul nan a b = f64NaN nan :=
  if_pos (Bool.or_eq_true_iff.mpr h)

theorem fdiv_of_nan (h : f64IsNaN a = true ∨ f64IsNaN b = true) : fdiv nan a b = f64NaN nan :=
  if_pos (Bool.or_eq_true_iff.mpr h)

theorem fsub_inf_inf (ha : f64IsInf a = true) (hb : f64IsInf b = true) (hs : f64Sign a = f64Sign b) :
    fsub nan a b = f64NaN nan := by
  simp [fsub, f64IsNaN_of_inf ha, f64IsNaN_of_inf hb, ha, hb, hs]

theorem fdiv_inf_inf (ha : f64IsInf a = true) (hb : f64IsInf b = true) : fdiv nan a b = f64NaN nan := by
  simp [fdiv, f64IsNaN_of_inf ha, f64IsNaN_of_inf hb, ha, hb]

theorem fdiv_zero_zero (ha : f64IsZero a = true) (hb : f64IsZero b = true) : fdiv nan a b = f64NaN nan := by
  have hfa := f64IsFinite_of_zero ha
  have hfb := f64IsFinite_of_zero hb
  simp [fdiv, f64IsNaN_of_finite hfa, f64IsNaN_of_finite hfb, f64IsInf_of_finite hfa, f64IsInf_of_finite hfb, ha, hb]

theorem fmul_zero_inf (ha : f64IsZero a = true) (hb : f64IsInf b = true) :
    fmul nan a b = f64NaN nan ∧ fmul nan b a = f64NaN nan := by
  have hfa := f64IsFinite_of_zero ha
  constructor <;>
    simp [fmul, f64IsNaN_of_finite hfa, f64IsNaN_of_inf hb, f64IsInf_of_finite hfa, ha, hb]

end

/-! ## `u32_to_f64` (R134) -/

theorem unitsPerOne_pos : 0 < unitsPerOne := by decide +kernel

/-- A number of units that is a multiple of its last place is exact. -/
theorem bitsUnits_roundBits_of_dvd {n : Nat} (h : 2 ^ roundScale n 1 ∣ n) : bitsUnits (roundBits n 1) = n := by
  obtain ⟨k, hk⟩ := h
  rw [bitsUnits_roundBits, roundDigits, Nat.one_mul]
  conv_lhs => enter [1, 1]; rw [hk, Nat.mul_comm]
  rw [roundQuotient_mul_self k (Nat.two_pow_pos _), Nat.mul_comm, ← hk]

section

variable (w : U32)

theorem u32_not_overflow : roundBits (w.toNat * unitsPerOne) 1 < infBits := by
  have hthreshold : 2 ^ 32 * unitsPerOne ≤ overflowUnits * 1 := by decide +kernel
  have hpos := unitsPerOne_pos
  rw [← not_le, overflow_iff Nat.one_pos]
  generalize unitsPerOne = one at *
  exact not_le.mpr ((Nat.mul_lt_mul_of_pos_right w.isLt hpos).trans_le hthreshold)

theorem f64Sign_u32ToF64 : f64Sign (u32ToF64 w) = false := f64Sign_round _ _ _

theorem f64IsFinite_u32ToF64 : f64IsFinite (u32ToF64 w) = true := f64IsFinite_round.mpr (u32_not_overflow w)

theorem f64Units_u32ToF64 : f64Units (u32ToF64 w) = w.toNat * unitsPerOne := by
  rw [u32ToF64, f64Units_round, roundedUnits, Nat.min_eq_right (u32_not_overflow w).le,
    bitsUnits_roundBits_of_dvd]
  exact pow_roundScale_dvd (w.isLt.trans (by decide)) 1074

end

/-! ## The obligations -/

theorem not_finite_iff_overflow {sign : Bool} {n d : Nat} (hd : 0 < d) :
    f64IsFinite (f64Round sign n d) = false ↔ overflowUnits * d ≤ n := by
  rw [← overflow_iff hd, ← not_lt, ← f64IsFinite_round (sign := sign), Bool.not_eq_true]

/-- Settles O53: the result is `roundBits` packed, whose digits are a rounded quotient on their scale; each operation on finite
operands is one such rounding, the NaN cases are branches of their own, and a u32 is a whole number of its last places. -/
theorem roundsToNearestEven : Obligations.RoundsToNearestEven := by
  refine ⟨fun sign n d hd => ⟨f64Sign_round sign n d, not_finite_iff_overflow hd, f64Round_of_overflow, fun hfin p _ =>
      f64Round_nearest hd (f64IsFinite_round.mp hfin) p⟩,
    fun nan a b ha hb => ⟨fmul_eq_round nan ha hb, fdiv_eq_round nan ha hb, fdiv_zero_eq_inf nan ha hb,
      fsub_eq_round nan ha hb, fsub_self nan ha⟩,
    fun nan a b => ⟨fun h => ?_, fun ha hb => ⟨fun hs => ?_, ?_⟩, fun ha hb => ?_, fun ha hb => ?_⟩,
    fun w => ⟨f64Sign_u32ToF64 w, f64IsFinite_u32ToF64 w, f64Units_u32ToF64 w⟩⟩
  · rw [fsub_of_nan h, fmul_of_nan h, fdiv_of_nan h]
    exact ⟨f64NaN_isNaN nan, f64NaN_isNaN nan, f64NaN_isNaN nan⟩
  · rw [fsub_inf_inf ha hb hs]
    exact f64NaN_isNaN nan
  · rw [fdiv_inf_inf ha hb]
    exact f64NaN_isNaN nan
  · rw [fdiv_zero_zero ha hb]
    exact f64NaN_isNaN nan
  · obtain ⟨hl, hr⟩ := fmul_zero_inf (nan := nan) ha hb
    rw [hl, hr]
    exact ⟨f64NaN_isNaN nan, f64NaN_isNaN nan⟩

/-- Settles O52: each constant is one operation on finite operands, and the rounding of its exact result is computed. -/
theorem constantsAreComputed : Obligations.ConstantsAreComputed := by
  intro nan
  refine ⟨?_, ?_, ?_⟩
  · rw [fsub_eq_round nan (by decide) (by decide) (by decide +kernel)]
    decide +kernel
  · rw [fdiv_eq_round nan (by decide) (by decide) (by decide)]
    decide +kernel
  · rw [fdiv_eq_round nan (by decide) (by decide) (by decide)]
    decide +kernel

/-- No u32 times the constant comes near the overflow threshold. -/
theorem u32_mul_cSubTs_lt (w : U32) : w.toNat * f64Units cSubTs < overflowUnits := by
  have hsmall : 2 ^ 32 * f64Units cSubTs < overflowUnits := by decide +kernel
  generalize f64Units cSubTs = c at *
  exact (Nat.mul_le_mul_right c w.isLt.le).trans_lt hsmall

theorem subTimestampSeconds_eq_round (w2 : U32) :
    subTimestampSeconds w2 = f64Round false (w2.toNat * unitsPerOne * f64Units cSubTs) unitsPerOne := by
  rw [subTimestampSeconds, fmul_eq_round 0#64 (f64IsFinite_u32ToF64 w2) (by decide), f64Sign_u32ToF64, f64Units_u32ToF64]
  rfl

/-- Settles O51: the sub-timestamp is one rounding of a product of positive sign, below the overflow threshold. -/
theorem subTimestampIsFiniteNonNegative : Obligations.SubTimestampIsFiniteNonNegative := by
  refine ⟨fun w2 => ?_, by decide +kernel, by decide +kernel, by decide +kernel, by decide +kernel⟩
  rw [subTimestampSeconds_eq_round]
  refine ⟨f64Sign_round _ _ _, f64IsFinite_round_of_lt unitsPerOne_pos ?_⟩
  rw [Nat.mul_right_comm]
  exact Nat.mul_lt_mul_of_pos_right (u32_mul_cSubTs_lt w2) unitsPerOne_pos

end Sys2Proof.Machine
end

section
/-!
The force (43_calibration.md sections 2 and 3): what a NaN does to it (R142, R149), its value at the reference (R144), its
sign and monotonicity (R145), and the three outcomes of a lookup (R147, R150).
-/

namespace Sys2Proof.Machine

/-! ## NaN operands (R142, R149) -/

theorem computeForce_of_nan {nan ref measured : F64} (h : f64IsNaN ref = true ∨ f64IsNaN measured = true) :
    computeForce nan ref measured = f64NaN nan := by
  have hnan := f64NaN_isNaN nan
  rw [computeForce, fsub_of_nan h.symm, fdiv_of_nan (.inl hnan), fdiv_of_nan (.inl hnan), fdiv_of_nan (.inl hnan),
    fmul_of_nan (.inl hnan)]

/-- Settles O56: a NaN operand makes every one of the five results the same NaN, and a NaN pattern is its own image. -/
theorem forceOfNaNIsNaN : Obligations.ForceOfNaNIsNaN := by
  refine ⟨fun nan ref measured h => ?_, fun p => f64NaN_self, fun p ref measured hp h => ?_⟩
  · rw [computeForce_of_nan h]
    exact f64NaN_isNaN nan
  · rw [computeForce_of_nan h, f64NaN_self hp]

/-! ## Operations that scale a magnitude -/

theorem roundedUnits_mono {n n' d : Nat} (hd : 0 < d) (h : n ≤ n') : roundedUnits n d ≤ roundedUnits n' d :=
  bitsUnits_mono (min_le_min_left infBits (roundBits_mono hd h))

theorem roundedUnits_le_inf (n d : Nat) : roundedUnits n d ≤ bitsUnits infBits := bitsUnits_mono (Nat.min_le_left _ _)

theorem f64Units_zero (sign : Bool) : f64Units (f64Zero sign) = 0 := f64Units_eq_zero_iff.mpr (f64IsZero_zero sign)

theorem roundedUnits_zero (d : Nat) : roundedUnits 0 d = 0 := by
  rw [← f64Units_round false 0 d, f64Round_zero, f64Units_zero]

/-- An operation on one operand that is no NaN: its result is none either, `neg` says whether the sign changes, and the
magnitude of the result follows the magnitude of the operand. -/
structure ScalesMagnitude (f : F64 → F64) (neg : Bool) : Prop where
  not_nan : ∀ {a : F64}, f64IsNaN a = false → f64IsNaN (f a) = false
  sign : ∀ {a : F64}, f64IsNaN a = false → f64Sign (f a) = (f64Sign a ^^ neg)
  units_mono : ∀ {a a' : F64}, f64IsNaN a = false → f64IsNaN a' = false → f64Units a ≤ f64Units a' →
    f64Units (f a) ≤ f64Units (f a')
  units_zero : ∀ {a : F64}, f64IsNaN a = false → f64Units a = 0 → f64Units (f a) = 0

theorem ScalesMagnitude.comp {f g : F64 → F64} {neg neg' : Bool} (hg : ScalesMagnitude g neg')
    (hf : ScalesMagnitude f neg) : ScalesMagnitude (fun a => g (f a)) (neg ^^ neg') where
  not_nan ha := hg.not_nan (hf.not_nan ha)
  sign ha := by rw [hg.sign (hf.not_nan ha), hf.sign ha, Bool.xor_assoc]
  units_mono ha ha' h := hg.units_mono (hf.not_nan ha) (hf.not_nan ha') (hf.units_mono ha ha' h)
  units_zero ha h := hg.units_zero (hf.not_nan ha) (hf.units_zero ha h)

theorem f64IsNaN_inf (sign : Bool) : f64IsNaN (f64Inf sign) = false := by cases sign <;> decide

theorem f64Units_inf (sign : Bool) : f64Units (f64Inf sign) = bitsUnits infBits := f64Units_pack sign (by decide)

theorem f64Units_of_inf {a : F64} (h : f64IsInf a = true) : f64Units a = bitsUnits infBits := by
  rw [f64Units_eq_bitsUnits, f64Bits_of_inf h]

/-- An operation that keeps an infinity one, and rounds a finite operand times `c` over `d`. -/
theorem scalesMagnitude_of_round {f : F64 → F64} {neg : Bool} {c d : Nat} (hd : 0 < d)
    (hinf : ∀ {a : F64}, f64IsInf a = true → f a = f64Inf (f64Sign a ^^ neg))
    (hfin : ∀ {a : F64}, f64IsFinite a = true → f a = f64Round (f64Sign a ^^ neg) (f64Units a * c) d) :
    ScalesMagnitude f neg := by
  have hcases {a : F64} (ha : f64IsNaN a = false) : f64IsInf a = true ∨ f64IsFinite a = true := by
    cases hi : f64IsInf a with
    | true => exact .inl rfl
    | false => exact .inr (f64IsFinite_of_not_inf ha hi)
  refine ⟨fun {a} ha => ?_, fun {a} ha => ?_, fun {a a'} ha ha' h => ?_, fun {a} ha h => ?_⟩
  · rcases hcases ha with hi | hf
    · rw [hinf hi]; exact f64IsNaN_inf _
    · rw [hfin hf]; exact f64Round_not_nan _ _ _
  · rcases hcases ha with hi | hf
    · rw [hinf hi]; exact f64Sign_pack _ _
    · rw [hfin hf]; exact f64Sign_round _ _ _
  · rcases hcases ha' with hi' | hf'
    · rw [hinf hi', f64Units_inf]
      rcases hcases ha with hi | hf
      · rw [hinf hi, f64Units_inf]
      · rw [hfin hf, f64Units_round]
        exact roundedUnits_le_inf _ _
    · rcases hcases ha with hi | hf
      · rw [f64Units_of_inf hi] at h
        exact absurd h (not_le.mpr (f64Units_lt_of_finite hf'))
      · rw [hfin hf, hfin hf', f64Units_round, f64Units_round]
        exact roundedUnits_mono hd (Nat.mul_le_mul_right c h)
  · rcases hcases ha with hi | hf
    · rw [f64Units_of_inf hi] at h
      exact absurd h (by decide +kernel)
    · rw [hfin hf, f64Units_round, h, Nat.zero_mul, roundedUnits_zero]

section

variable (nan : F64) {b : F64} (hb : f64IsFinite b = true) (h0 : f64IsZero b = false)

include hb h0

theorem scalesMagnitude_fdiv : ScalesMagnitude (fun a => fdiv nan a b) (f64Sign b) :=
  scalesMagnitude_of_round (f64Units_pos h0)
    (fun ha => by simp [fdiv, f64IsNaN_of_inf ha, f64IsNaN_of_finite hb, ha, f64IsInf_of_finite hb])
    (fun ha => fdiv_eq_round nan ha hb h0)

theorem scalesMagnitude_fmul : ScalesMagnitude (fun a => fmul nan a b) (f64Sign b) :=
  scalesMagnitude_of_round unitsPerOne_pos
    (fun ha => by simp [fmul, f64IsNaN_of_inf ha, f64IsNaN_of_finite hb, ha, h0])
    (fun ha => fmul_eq_round nan ha hb)

/-- The four operations of the force after the subtraction, the constants all positive (R144). -/
theorem scalesMagnitude_afterShift :
    ScalesMagnitude (fun d => fmul nan (fdiv nan (fdiv nan (fdiv nan d b) cDen) cK) c1000) (f64Sign b) := by
  have hforce := (scalesMagnitude_fmul nan (b := c1000) (by decide) (by decide)).comp
    ((scalesMagnitude_fdiv nan (b := cK) (by decide) (by decide)).comp
      ((scalesMagnitude_fdiv nan (b := cDen) (by decide) (by decide)).comp (scalesMagnitude_fdiv nan hb h0)))
  have hsigns : (f64Sign b ^^ f64Sign cDen ^^ f64Sign cK ^^ f64Sign c1000) = f64Sign b := by
    cases f64Sign b <;> decide
  rwa [hsigns] at hforce

end

/-! ### The order of values -/

theorem f64Value_eq_ite (p : F64) : f64Value p = if f64Sign p = true then -(f64Units p : Int) else (f64Units p : Int) := rfl

theorem f64Value_zero (sign : Bool) : f64Value (f64Zero sign) = 0 := by
  rw [f64Value_eq_ite, f64Units_zero]
  simp

/-- An operation that keeps the sign and follows the magnitude keeps the order of values. -/
theorem ScalesMagnitude.value_mono {f : F64 → F64} (hf : ScalesMagnitude f false) {a a' : F64} (ha : f64IsNaN a = false)
    (ha' : f64IsNaN a' = false) (h : f64Value a ≤ f64Value a') : f64Value (f a) ≤ f64Value (f a') := by
  have hzero := hf.units_zero ha
  have hzero' := hf.units_zero ha'
  have hup := hf.units_mono ha ha'
  have hdown := hf.units_mono ha' ha
  have hsign := hf.sign ha
  have hsign' := hf.sign ha'
  rw [Bool.xor_false] at hsign hsign'
  rw [f64Value_eq_ite, f64Value_eq_ite] at h ⊢
  rw [hsign, hsign']
  revert h
  cases f64Sign a <;> cases f64Sign a' <;> simp only [Bool.false_eq_true, if_false, if_true] <;> intro h
  case false.false => have := hup (by omega); omega
  case false.true => have := hzero (by omega); have := hzero' (by omega); omega
  case true.false => omega
  case true.true => have := hdown (by omega); omega

/-! ## The shift (R144) -/

section

variable {nan a b : F64} (ha : f64IsFinite a = true) (hb : f64IsFinite b = true)

include ha hb

theorem fsub_not_nan : f64IsNaN (fsub nan a b) = false := by
  rw [fsub_eq_ite nan ha hb]
  split_ifs
  · exact f64IsNaN_of_finite (f64IsFinite_of_zero (f64IsZero_zero _))
  · exact f64Round_not_nan _ _ _

/-- The value of a difference is the rounded magnitude of the exact one, with its sign. -/
theorem f64Value_fsub :
    f64Value (fsub nan a b) =
      if f64Value a < f64Value b then -(roundedUnits (f64Value a - f64Value b).natAbs 1 : Int)
      else (roundedUnits (f64Value a - f64Value b).natAbs 1 : Int) := by
  by_cases heq : f64Value a = f64Value b
  · rw [fsub_of_value_eq nan ha hb heq, f64Value_zero, heq, if_neg (lt_irrefl _), sub_self, Int.natAbs_zero,
      roundedUnits_zero]
    rfl
  · rw [fsub_eq_round nan ha hb heq, f64Value_eq_ite, f64Sign_round, f64Units_round]
    simp only [decide_eq_true_eq]

/-- A shift of zero counts as positive, the reference being no zero. -/
theorem f64Sign_fsub (h0 : f64IsZero b = false) : f64Sign (fsub nan a b) = decide (f64Value a < f64Value b) := by
  by_cases heq : f64Value a = f64Value b
  · have hpos := f64Units_pos h0
    have hsame : (f64Sign a && !f64Sign b) = false := by
      rw [f64Value_eq_ite, f64Value_eq_ite] at heq
      revert heq
      cases f64Sign a <;> cases f64Sign b <;> simp only [Bool.false_eq_true, if_false, if_true] <;> intro heq
      case true.false => omega
      all_goals rfl
    rw [fsub_of_value_eq nan ha hb heq, hsame, heq, f64Zero, f64Sign_pack]
    simp
  · rw [fsub_eq_round nan ha hb heq, f64Sign_round]

/-- A difference does not fall as its first operand grows. -/
theorem f64Value_fsub_mono {a' : F64} (ha' : f64IsFinite a' = true) (h : f64Value a ≤ f64Value a') :
    f64Value (fsub nan a b) ≤ f64Value (fsub nan a' b) := by
  rw [f64Value_fsub ha hb, f64Value_fsub ha' hb]
  have hmono {n n' : Nat} : n ≤ n' → roundedUnits n 1 ≤ roundedUnits n' 1 := roundedUnits_mono Nat.one_pos
  split_ifs with hlt hlt' hlt'
  · have := hmono (n := (f64Value a' - f64Value b).natAbs) (n' := (f64Value a - f64Value b).natAbs) (by omega)
    omega
  · omega
  · omega
  · have := hmono (n := (f64Value a - f64Value b).natAbs) (n' := (f64Value a' - f64Value b).natAbs) (by omega)
    omega

end

/-! ## The force (R144, R145) -/

/-- A zero is the zero of its sign. -/
theorem eq_f64Zero_of_isZero {p : F64} (h : f64IsZero p = true) : p = f64Zero (f64Sign p) := by
  simp only [f64IsZero, Bool.and_eq_true, beq_iff_eq] at h
  conv_lhs => rw [f64_eq_pack p, h.1, h.2]
  rfl

/-- Settles O54: the shift is +0.0, and the four operations after it keep a zero a zero and give it the reference's sign. -/
theorem forceAtReferenceIsZero : Obligations.ForceAtReferenceIsZero := by
  intro nan ref hfin h0
  have hscale := scalesMagnitude_afterShift nan hfin h0
  have hshift : f64IsNaN (f64Zero false) = false := by decide
  have hzero := f64Units_eq_zero_iff.mp (hscale.units_zero hshift (f64Units_zero false))
  have hsign := (hscale.sign hshift).trans (congrArg (· ^^ f64Sign ref) (f64Sign_pack false 0))
  rw [computeForce, fsub_self nan hfin]
  refine (eq_f64Zero_of_isZero hzero).trans (congrArg f64Zero ?_)
  rw [hsign, Bool.false_xor]

/-- Settles O55: the shift has the sign and the order of the exact difference, and the four operations after it keep both,
but for the sign of the reference. -/
theorem forceSignLaw : Obligations.ForceSignLaw := by
  refine ⟨fun nan ref measured href h0 hm => ?_, fun nan ref low high href h0 hpos hlow hhigh h => ?_⟩
  · have hscale := scalesMagnitude_afterShift nan href h0
    have hshift := fsub_not_nan (nan := nan) hm href
    refine ⟨hscale.not_nan hshift, (hscale.sign hshift).trans ?_⟩
    rw [f64Sign_fsub hm href h0]
  · have hscale := scalesMagnitude_afterShift nan href h0
    rw [hpos] at hscale
    exact hscale.value_mono (fsub_not_nan hlow href) (fsub_not_nan hhigh href) (f64Value_fsub_mono hlow href hhigh h)

/-! ## The lookup (R147, R150) -/

/-- The two zeros. -/
theorem f64IsZero_iff {p : F64} : f64IsZero p = true ↔ p = 0x0000000000000000#64 ∨ p = 0x8000000000000000#64 := by
  refine ⟨fun h => ?_, ?_⟩
  · rw [eq_f64Zero_of_isZero h]
    cases f64Sign p
    · exact .inl (by decide)
    · exact .inr (by decide)
  · rintro (rfl | rfl) <;> decide

/-- Settles O57: the lookup branches on the valid bit and on a zero reference, and `f64IsZero` is true of the two zeros. -/
theorem calibrateThreeOutcomes : Obligations.CalibrateThreeOutcomes := by
  intro t draw c f k wl
  refine ⟨fun hv => ?_, fun hv hz => ?_, fun hv hpos hneg => ?_, fun _ _ => rfl⟩
  · simp [calibrate, hv]
  · simp [calibrate, hv, f64IsZero_iff.mpr hz]
  · have hz : ¬f64IsZero (calRead t c f k).reference = true := fun h =>
      (f64IsZero_iff.mp h).elim hpos hneg
    simp [calibrate, hv, hz]

end Sys2Proof.Machine
end
